-- ==== Sys2Proof/Word.lean ====
section
/-! DEFINITION. The word types of DTMFSYNC-CORE (spec 00_scope.md R7, R8; 30_encoding.md R60, R70). -/

namespace Sys2Proof

/-- The width of every data register and of every operand: 8 bits, unsigned (R7 `W`, R8). -/
abbrev Byte := BitVec 8

/-- A command word as it stands on `cmd_data`: 16 bits (R60). -/
abbrev CmdWord := BitVec 16

/-- A response word as it stands on `rsp_data`: 32 bits (R70). -/
abbrev RspWord := BitVec 32

/-- A symbol code: the 4 bits of a nibble (43_symbol_map.md R170). -/
abbrev SymCode := BitVec 4

end Sys2Proof
end

