-- ==== Sys2Proof/Machine/State.lean ====
section
/-! DEFINITION. The state of DTMFSYNC-CORE as plain data (spec 10_state.md R10 to R33, 70_reset_and_hazards.md R240). -/

namespace Sys2Proof.Machine

/-- MODE: 'a 2-bit field holding one of IDLE = 0, ENC = 1 or DEC = 2. The value 3 is never held' (R16, log 8). -/
inductive Mode where
  | idle | enc | dec
  deriving DecidableEq, Repr

/-- RES, the result of the last decode: NONE = 0, VALID = 1, INVALID = 2; 3 is never held (R20, log 8). -/
inductive Res where
  | noResult | valid | invalid
  deriving DecidableEq, Repr

/-- RSN, the reason of the last decode result, codes 0 to 6 in this order; 7 is never held (R21, log 8). -/
inductive Rsn where
  | noReason | short | zeroSeed | overflow | empty | length | mismatch
  deriving DecidableEq, Repr

/-- The command error codes 0 to 8 in this order (60_exceptions.md R210); 9 to 15 are never produced (log 8). -/
inductive ErrCode where
  | noError | illegal | seq | seed0 | overflow | empty | length | range | notValid
  deriving DecidableEq, Repr

/-- The kinds of output byte, TAG 0 to 7 in this order (30_encoding.md R71). -/
inductive Tag where
  | rslt | seed | data | check | prim | map | reg | pay
  deriving DecidableEq, Repr

/-- What the host drives at one rising edge of `clk` (R30). -/
structure Pins where
  rst : Bool
  cmdValid : Bool
  cmdData : CmdWord
  rspReady : Bool
  deriving DecidableEq, Repr

/-- What the block shows on its output ports (R30). -/
structure Outputs where
  cmdReady : Bool
  rspValid : Bool
  rspData : RspWord
  deriving DecidableEq, Repr

/-- PBUF as (index, byte) pairs, indices strictly rising (`Memory.wf`). An index that is not listed holds nothing that
was written since the last reset (R26, log 4). -/
abbrev Memory := List Host.Cell

/-- The state: every element of R10, the response register of R31, and the model's own `inputs`, `edges` and
`pbufEpoch`. -/
structure State where
  /-- SR, the standalone scrambler register (R13) -/
  sr : Byte
  /-- KS, the frame engine's keystream register (R14) -/
  ks : Byte
  /-- CK, the frame engine's checksum register (R15) -/
  ck : Byte
  /-- MODE (R16) -/
  mode : Mode
  /-- CNT, payload bytes of the current or last frame (R17) -/
  cnt : Byte
  /-- ZS, the decode frame had a zero seed (R18) -/
  zs : Bool
  /-- OVF, the decode frame overflowed N_MAX (R19) -/
  ovf : Bool
  /-- RES (R20) -/
  res : Res
  /-- RSN (R21) -/
  rsn : Rsn
  /-- PLEN, the length of the validated payload (R22) -/
  plen : Byte
  /-- CFG, the expected payload length, 0 = any (R23) -/
  cfg : Byte
  /-- ERRF, the sticky error flag (R24) -/
  errf : Bool
  /-- ERRC, the code of the most recently rejected command (R25) -/
  errc : ErrCode
  /-- PBUF, the payload buffer (R26) -/
  pbuf : Memory
  /-- the response register: `none` when `rsp_valid = 0`, else `rsp_data` (R31, R32) -/
  rsp : Option RspWord
  /-- MODEL'S OWN: what the host will drive, one sample a rising edge, the next edge's first (log 1) -/
  inputs : List Pins
  /-- MODEL'S OWN: rising edges so far; only the free value of `rsp_data` reads it (log 6) -/
  edges : Nat
  /-- MODEL'S OWN: stamp of the latest `rst` edge; only the free value of PBUF reads it (log 5) -/
  pbufEpoch : Nat
  deriving DecidableEq, Repr

/-- Why a step stops with a fault. -/
inductive Fault where
  /-- Raised by `loadPayload` and `storePayload` for an index outside 0 to N_MAX-1, which does not exist (20_memory.md
  R40 (b)). Safe: the model stops. No command at N_MAX = 255 reaches such an index, in any state (log 9). -/
  | payloadIndexOutside (index : Nat)
  deriving DecidableEq, Repr

/-- Why a step has no meaning. -/
inductive Refusal where
  /-- Raised only by an arm of `exec` for an instruction that has no meaning yet: none has it. Safe: the model stops. -/
  | notModelled (mnemonic : String)
  deriving DecidableEq, Repr

/-- The outcome of a command or a step. -/
abbrev Out := Host.Outcome State Fault Refusal

/-- The state right after `rst` (R10, R33, R240): every register at its reset value, the interface empty. PBUF is
unspecified: nothing is listed. The host has driven nothing yet. -/
def State.reset : State where
  sr := 0x00
  ks := 0x00
  ck := 0x00
  mode := .idle
  cnt := 0x00
  zs := false
  ovf := false
  res := .noResult
  rsn := .noReason
  plen := 0x00
  cfg := 0x00
  errf := false
  errc := .noError
  pbuf := []
  rsp := none
  inputs := []
  edges := 0
  pbufEpoch := 0

end Sys2Proof.Machine
end

