-- ==== Sys2Proof/Machine/Flags.lean ====
section
/-! DEFINITION. The numeric codes of the enumerated fields, the packed registers STATUS and FLAGS, and the validation
that computes RSN (spec 10_state.md R16, R20, R21, R27; 42_frame_decode.md R142; 60_exceptions.md R210). -/

namespace Sys2Proof.Machine

/-- MODE's code (R16). -/
def Mode.code : Mode → BitVec 2
  | .idle => 0
  | .enc => 1
  | .dec => 2

/-- RES's code (R20). -/
def Res.code : Res → BitVec 2
  | .noResult => 0
  | .valid => 1
  | .invalid => 2

/-- RSN's code (R21). -/
def Rsn.code : Rsn → BitVec 3
  | .noReason => 0
  | .short => 1
  | .zeroSeed => 2
  | .overflow => 3
  | .empty => 4
  | .length => 5
  | .mismatch => 6

/-- An error code's value (R210). -/
def ErrCode.code : ErrCode → BitVec 4
  | .noError => 0
  | .illegal => 1
  | .seq => 2
  | .seed0 => 3
  | .overflow => 4
  | .empty => 5
  | .length => 6
  | .range => 7
  | .notValid => 8

/-- `STATUS = {ERRF, RSN[2:0], RES[1:0], MODE[1:0]}` (R27). -/
def statusByte (s : State) : Byte := BitVec.ofBool s.errf ++ s.rsn.code ++ s.res.code ++ s.mode.code

/-- `FLAGS = {000000, OVF, ZS}` (R27). -/
def flagsByte (s : State) : Byte := 0#6 ++ BitVec.ofBool s.ovf ++ BitVec.ofBool s.zs

/-- R122, R142: CFG demands a length and CNT is another one. -/
def lengthWrong (s : State) : Bool := s.cfg != 0 && s.cnt != s.cfg

/-- R142: the reason of a frame that ends with received checksum `d`, in the fixed priority; `noReason` is VALID. -/
def decodeReason (d : Byte) (s : State) : Rsn :=
  if s.zs then .zeroSeed
  else if s.ovf then .overflow
  else if s.cnt = 0 then .empty
  else if lengthWrong s then .length
  else if s.ck ≠ d then .mismatch
  else .noReason

end Sys2Proof.Machine
end

