-- ==== Sys2Proof/Machine/Operands.lean ====
section
/-! DEFINITION. What an operand byte names (spec 10_state.md R27, 44_control.md R194, 42_frame_decode.md R144). D itself is a
byte with no extension, scaling or shift (30_encoding.md R61). -/

namespace Sys2Proof.Machine

/-- The register that index `i` names, read, for a capacity `n`: the map of R27; `none` for 0x0A to 0xFF, which have no
register. -/
def readRegister (n : Byte) (i : Byte) (s : State) : Option Byte :=
  match i.toNat with
  | 0x00 => some (statusByte s)
  | 0x01 => some (s.errc.code.setWidth 8)
  | 0x02 => some s.sr
  | 0x03 => some s.ks
  | 0x04 => some s.ck
  | 0x05 => some s.cnt
  | 0x06 => some s.plen
  | 0x07 => some s.cfg
  | 0x08 => some (flagsByte s)
  | 0x09 => some n
  | _ => none

/-- RDPAY's index is in range: `D < PLEN` (R144). -/
def payloadIndexInRange (d : Byte) (s : State) : Bool := decide (d < s.plen)

/-- CFGW's operand is a length a frame can have, or 0: `D <= N_MAX` (R194). -/
def lengthInRange (n d : Byte) : Bool := decide (d ≤ n)

end Sys2Proof.Machine
end

