-- ==== Sys2Proof/Config.lean ====
section
/-! DEFINITION. What the implementation fixes (spec 00_scope.md R7) and the free values
(93_implementation_defined.md U3, U17). -/

namespace Sys2Proof

/-- The feedback constant of the scrambler, `0xAF` (R7, R100). -/
def Config.poly : Byte := 0xAF

/-- The payload buffer's capacity and the longest payload, `N_MAX`: 255 for this hardware (R7). The rules hold for
every `N_MAX` from 1 to 255, so the operations that read it take it as an argument and the meanings pass this
constant (log 3). -/
def Config.nMax : Byte := 255

/-- FREE VALUE (log 4, safe): what entry `i` of PBUF reads as when nothing has written it since the reset stamped
`epoch`. 10_state.md R26: 'Its contents after reset are unspecified.'; U3: any value. No body: nothing can be
proved of it. -/
opaque Config.pbufUnwritten (epoch i : Nat) : Byte

/-- FREE VALUE (log 6, safe): what `rsp_data` shows at clock edge number `edge` while `rsp_valid` is 0.
10_state.md R32, U17: any value. -/
opaque Config.rspDataIdle (edge : Nat) : RspWord

end Sys2Proof
end

