-- ==== Sys2Proof/Machine/Symbols.lean ====
section
/-! DEFINITION. The symbol alphabet (spec 43_symbol_map.md R170, R171). Tone pairs are the synthesis collaborator's
(R173, informative) and are not modelled. -/

namespace Sys2Proof.Machine

/-- The high nibble, bits [7:4] (00_scope.md R9). -/
def highNibble (b : Byte) : BitVec 4 := b.extractLsb' 4 4

/-- The low nibble, bits [3:0] (R9). -/
def lowNibble (b : Byte) : BitVec 4 := b.extractLsb' 0 4

/-- R170: 'the symbol code of a nibble n is n itself'. -/
def symbolOf (nibble : BitVec 4) : SymCode := nibble

/-- R171: the symbols of a byte, high nibble first (20_memory.md R43). -/
def byteToSymbolPair (b : Byte) : SymCode × SymCode := (symbolOf (highNibble b), symbolOf (lowNibble b))

/-- R170: the names of the sixteen codes. -/
def symbolName (c : SymCode) : Char :=
  match c.toNat with
  | 0 => '0'
  | 1 => '1'
  | 2 => '2'
  | 3 => '3'
  | 4 => '4'
  | 5 => '5'
  | 6 => '6'
  | 7 => '7'
  | 8 => '8'
  | 9 => '9'
  | 10 => 'a'
  | 11 => 'b'
  | 12 => 'c'
  | 13 => 'd'
  | 14 => '*'
  | _ => '#'

/-- R170: `e` is an alias of `*`, `f` of `#`; the other codes have none. -/
def symbolAlias (c : SymCode) : Option Char :=
  match c.toNat with
  | 14 => some 'e'
  | 15 => some 'f'
  | _ => none

end Sys2Proof.Machine
end

