-- ==== Sys2Proof/Machine/Response.lean ====
section
/-! DEFINITION. The 32-bit response word (spec 30_encoding.md R70 to R72), built and read. -/

namespace Sys2Proof.Machine

/-- TAG's code (R71). -/
def Tag.code : Tag → BitVec 3
  | .rslt => 0
  | .seed => 1
  | .data => 2
  | .check => 3
  | .prim => 4
  | .map => 5
  | .reg => 6
  | .pay => 7

/-- R72: the tags whose response carries a symbol pair. -/
def Tag.carriesSymbols : Tag → Bool
  | .rslt => false
  | .seed => true
  | .data => true
  | .check => true
  | .prim => false
  | .map => true
  | .reg => false
  | .pay => false

/-- R70: the fields of a response word, from bit 31 down: zero, SV, SYM_LO, SYM_HI, BYTE, TAG, OV, CODE. -/
def responseWord (sv : Bool) (symLo symHi : SymCode) (byte : Byte) (tag : BitVec 3) (ov : Bool) (code : BitVec 4) :
    RspWord :=
  0#7 ++ BitVec.ofBool sv ++ symLo ++ symHi ++ byte ++ tag ++ BitVec.ofBool ov ++ code

/-- R70, R72: the word of `emit(tag, b)`. -/
def emitWord (t : Tag) (b : Byte) : RspWord :=
  let sym := byteToSymbolPair b
  if t.carriesSymbols then responseWord true sym.2 sym.1 b t.code true 0
  else responseWord false 0 0 b t.code true 0

/-- R70: the word of `emit_none`, all zero. -/
def emptyWord : RspWord := 0

/-- R70, R211: the word of a rejection, `zext_32(e)`. -/
def errorWord (e : ErrCode) : RspWord := e.code.setWidth 32

/-- CODE, bits [3:0] (R70). -/
def rspCode (w : RspWord) : BitVec 4 := w.extractLsb' 0 4

/-- OV, bit 4 (R70). -/
def rspOv (w : RspWord) : Bool := w.getLsbD 4

/-- TAG, bits [7:5] (R70). -/
def rspTag (w : RspWord) : BitVec 3 := w.extractLsb' 5 3

/-- BYTE, bits [15:8] (R70). -/
def rspByte (w : RspWord) : Byte := w.extractLsb' 8 8

/-- SYM_HI, bits [19:16] (R70). -/
def rspSymHi (w : RspWord) : SymCode := w.extractLsb' 16 4

/-- SYM_LO, bits [23:20] (R70). -/
def rspSymLo (w : RspWord) : SymCode := w.extractLsb' 20 4

/-- SV, bit 24 (R70). -/
def rspSv (w : RspWord) : Bool := w.getLsbD 24

/-- Bits [31:25], always 0 (R70). -/
def rspZero (w : RspWord) : BitVec 7 := w.extractLsb' 25 7

end Sys2Proof.Machine
end

