-- ==== Sys2Proof/Machine/Ops.lean ====
section
/-! DEFINITION. The named operations over PBUF and the registers, and rejection, the one shared way a command error is
taken (spec 00_scope.md R8, 10_state.md R26, 20_memory.md R40, 60_exceptions.md R210 to R215). -/

namespace Sys2Proof.Machine

/-! PBUF -/

/-- Every index is at least `lo` and below `hi`, and they rise strictly. -/
def risingWithin (lo hi : Nat) : Memory → Bool
  | [] => true
  | (a, _) :: m => decide (lo ≤ a) && decide (a < hi) && risingWithin (a + 1) hi m

/-- The canonical form for a buffer of `n` entries: indices strictly rising, all below `n`. An unlisted index reads as no
written value at all, so no entry can equal what an unlisted index reads as. -/
def Memory.wfAt (n : Nat) (m : Memory) : Bool := risingWithin 0 n m

/-- The canonical form of PBUF: N_MAX entries, indexed 0 to N_MAX-1 (R26). -/
def Memory.wf (m : Memory) : Bool := Memory.wfAt Config.nMax.toNat m

/-- What was last written at index `a`, or `none` where nothing was: what an unlisted index reads as (log 4). -/
def readByte (m : Memory) (a : Nat) : Option Byte :=
  match m with
  | [] => none
  | (b, v) :: rest => if a = b then some v else readByte rest a

/-- `PBUF[a] <- v` on the list, in its place. -/
def writeByte (m : Memory) (a : Nat) (v : Byte) : Memory :=
  match m with
  | [] => [(a, v)]
  | (b, u) :: rest =>
    if a < b then (a, v) :: (b, u) :: rest
    else if a = b then (a, v) :: rest
    else (b, u) :: writeByte rest a v

/-- The value of entry `a`: the byte written there, or the free value of an entry nothing has written (R26, U3, log 4). -/
def payloadValue (s : State) (a : Nat) : Byte :=
  (readByte s.pbuf a).getD (Config.pbufUnwritten s.pbufEpoch a)

/-- `MemRead(i, 1)` (R8) of a buffer of `n` entries. An index outside 0 to n-1 does not exist (R40 (b), log 9). -/
def loadPayload (n : Byte) (i : Byte) (s : State) : Except Fault Byte :=
  if i < n then .ok (payloadValue s i.toNat) else .error (.payloadIndexOutside i.toNat)

/-- `MemWrite(i, 1, v)` (R8) of a buffer of `n` entries. An index outside 0 to n-1 does not exist (R40 (b), log 9). -/
def storePayload (n : Byte) (i v : Byte) (s : State) : Except Fault State :=
  if i < n then .ok { s with pbuf := writeByte s.pbuf i.toNat v } else .error (.payloadIndexOutside i.toNat)

/-! Responses -/

/-- The response register is loaded: `rsp_valid` becomes 1 (10_state.md R31). -/
def State.respond (s : State) (w : RspWord) : State := { s with rsp := some w }

/-- `emit(tag, b)`: the command completes with an output byte (R8, R70). -/
def emit (t : Tag) (b : Byte) (s : State) : Out := .next (s.respond (emitWord t b))

/-- `emit_none`: the command completes with no output byte (R8, R70). -/
def emitNone (s : State) : Out := .next (s.respond emptyWord)

/-! Command errors -/

/-- The state after error `e` is raised: 'it changes no state other than `ERRC <- e` and `ERRF <- 1`. Its response is
`zext_32(e)`' (R211). -/
def State.rejected (s : State) (e : ErrCode) : State :=
  ({ s with errc := e, errf := true } : State).respond (errorWord e)

/-- `raise Error(e)`: ends the command; the block goes on with the next one (R8, R211). -/
def raise (e : ErrCode) (s : State) : Out := .next (s.rejected e)

/-- There is no return from a rejection (R215); CLRERR clears its record (44_control.md R191). -/
def State.clearErrors (s : State) : State := { s with errf := false, errc := .noError }

/-- A frame command's first check: `raise Error(SEQ)` unless MODE is `m` (R210, R212). -/
def requireMode (m : Mode) (s : State) (k : Out) : Out := if s.mode = m then k else raise .seq s

/-! Registers -/

/-- The reset values of R10 for every element but PBUF (44_control.md R193, 10_state.md R33). -/
def State.resetRegisters (s : State) : State :=
  { s with
    sr := State.reset.sr, ks := State.reset.ks, ck := State.reset.ck, mode := State.reset.mode
    cnt := State.reset.cnt, zs := State.reset.zs, ovf := State.reset.ovf, res := State.reset.res
    rsn := State.reset.rsn, plen := State.reset.plen, cfg := State.reset.cfg, errf := State.reset.errf
    errc := State.reset.errc }

/-- KS and CK both load the seed and CNT restarts (41_frame_encode.md R120, 42_frame_decode.md R140). -/
def State.loadSeed (s : State) (d : Byte) : State := { s with ks := d, ck := d, cnt := 0 }

/-- One payload byte enters the frame engine: KS takes its next keystream byte, CK absorbs the plaintext byte `p`, CNT
counts it (R121, R141). -/
def State.absorb (s : State) (k ck : Byte) : State := { s with ks := k, ck := ck, cnt := s.cnt + 1 }

/-- The result of a decode is recorded (R20 to R22). -/
def State.setResult (s : State) (r : Res) (why : Rsn) (len : Byte) : State :=
  { s with res := r, rsn := why, plen := len }

/-- CNT, ZS and OVF are cleared (R143, R192). -/
def State.clearCounts (s : State) : State := { s with cnt := 0, zs := false, ovf := false }

end Sys2Proof.Machine
end

