-- ==== Sys2Proof/Machine/Control.lean ====
section
/-! DEFINITION. NOP, CLRERR, ABORT, SRST, CFGW and RDREG (spec 44_control.md). -/

namespace Sys2Proof.Machine

/-- NOP (R190). -/
def execNop (s : State) : Out := emitNone s

/-- CLRERR (R191): `ERRF <- 0; ERRC <- 0`. -/
def execClrerr (s : State) : Out := emitNone s.clearErrors

/-- ABORT (R192): `MODE <- IDLE; CNT <- 0; ZS <- 0; OVF <- 0`, from any mode. -/
def execAbort (s : State) : Out := emitNone { s.clearCounts with mode := .idle }

/-- SRST (R193): every element of R10 but PBUF takes its reset value; the response is delivered normally. -/
def execSrst (s : State) : Out := emitNone s.resetRegisters

/-- CFGW for a capacity `n` (R194): SEQ, then RANGE when `D > N_MAX`. -/
def cfgwAt (n d : Byte) (s : State) : Out :=
  requireMode .idle s <|
    if lengthInRange n d then emitNone { s with cfg := d } else raise .range s

/-- CFGW (R194). -/
def execCfgw (d : Byte) (s : State) : Out := cfgwAt Config.nMax d s

/-- RDREG for a capacity `n` (R195): the register's value, or RANGE where the index names none. -/
def rdregAt (n d : Byte) (s : State) : Out :=
  match readRegister n d s with
  | some v => emit .reg v s
  | none => raise .range s

/-- RDREG (R195). -/
def execRdreg (d : Byte) (s : State) : Out := rdregAt Config.nMax d s

end Sys2Proof.Machine
end

