-- ==== Sys2Proof/Machine/Scrambler.lean ====
section
/-! DEFINITION. The scrambler's combinational functions (spec 40_scrambler.md R100 to R106), shared by SR, KS and CK. -/

namespace Sys2Proof.Machine

/-- R100 `step(s, b)`: shift right, XOR `0xAF` when `s[0] ^ b` is 1. -/
def lfsrStep (s : Byte) (b : Bool) : Byte :=
  if s.getLsbD 0 ^^ b then (s >>> 1) ^^^ Config.poly else s >>> 1

/-- R101 `ks_next(s) = step(s, 0)`. -/
def ksNext (s : Byte) : Byte := lfsrStep s false

/-- R106 (a): the inverse of `ks_next`, `(((s' ^ (s'[7] ? 0xAF : 0x00)) << 1) & 0xFF) | s'[7]`. -/
def ksPrev (s : Byte) : Byte :=
  ((s ^^^ (if s.getLsbD 7 then Config.poly else 0)) <<< 1) ||| (BitVec.ofBool (s.getLsbD 7)).setWidth 8

/-- R102 `T(x)`: eight updates with no data injected. -/
def eightSteps (x : Byte) : Byte :=
  ksNext (ksNext (ksNext (ksNext (ksNext (ksNext (ksNext (ksNext x)))))))

/-- R103 `chk8(s, d)`: eight steps that inject the bits of `d`, least significant first. The normative definition. -/
def chk8 (s d : Byte) : Byte :=
  [0, 1, 2, 3, 4, 5, 6, 7].foldl (fun st i => lfsrStep st (d.getLsbD i)) s

/-- A byte from its bits, bit 7 first. -/
def byteOfBits (b7 b6 b5 b4 b3 b2 b1 b0 : Bool) : Byte :=
  BitVec.ofBool b7 ++ BitVec.ofBool b6 ++ BitVec.ofBool b5 ++ BitVec.ofBool b4 ++
    BitVec.ofBool b3 ++ BitVec.ofBool b2 ++ BitVec.ofBool b1 ++ BitVec.ofBool b0

/-- R100's equations per output bit, with `f = s[0] ^ b`. -/
def stepNetwork (s : Byte) (b : Bool) : Byte :=
  let x := s.getLsbD
  let f := x 0 ^^ b
  byteOfBits f (x 7) (x 6 ^^ f) (x 5) (x 4 ^^ f) (x 3 ^^ f) (x 2 ^^ f) (x 1 ^^ f)

/-- R102's equations per output bit: the XOR network that the block evaluates in one command (R104). -/
def checksumNetwork (v : Byte) : Byte :=
  let x := v.getLsbD
  byteOfBits
    (x 2 ^^ x 6 ^^ x 7)
    (x 1 ^^ x 5 ^^ x 6)
    (x 0 ^^ x 2 ^^ x 4 ^^ x 5 ^^ x 6 ^^ x 7)
    (x 1 ^^ x 3 ^^ x 4 ^^ x 5 ^^ x 6)
    (x 0 ^^ x 3 ^^ x 4 ^^ x 5 ^^ x 6 ^^ x 7)
    (x 3 ^^ x 4 ^^ x 5 ^^ x 7)
    (x 3 ^^ x 4 ^^ x 7)
    (x 3 ^^ x 7)

/-- R105 `checksum(s, bytes)`, bytes in increasing index order (20_memory.md R42); of no byte it is `s`, as R105
states of the standalone instance. For the empty payload of a whole frame the spec settles no value (log 16). -/
def checksum (s : Byte) (bytes : List Byte) : Byte := bytes.foldl chk8 s

/-- The first `n` keystream bytes from state `s`; the seed itself is never one (R101). -/
def keystream (s : Byte) : Nat → List Byte
  | 0 => []
  | n + 1 => ksNext s :: keystream (ksNext s) n

end Sys2Proof.Machine
end

