-- ==== Sys2Proof/Machine/Decoder.lean ====
section
/-! DEFINITION. The frame decoder and validator: DECS, DECB, DECE, DEC1 and RDPAY (spec 42_frame_decode.md). -/

namespace Sys2Proof.Machine

/-- DECS (R140): SEQ unless IDLE; else KS and CK load the seed, ZS records a zero one, and any earlier result is gone. -/
def execDecs (d : Byte) (s : State) : Out :=
  requireMode .idle s <|
    emitNone { (s.loadSeed d).setResult .noResult .noReason 0 with zs := d == 0, ovf := false, mode := .dec }

/-- DECB for a capacity `n` (R141): SEQ unless DEC; at `CNT == N_MAX` the byte is discarded and OVF set; else the
recovered byte goes to `PBUF[CNT]` and CK absorbs it. Nothing is output before validation. -/
def decbAt (n d : Byte) (s : State) : Out :=
  requireMode .dec s <|
    if s.cnt = n then emitNone { s with ovf := true }
    else
      match storePayload n s.cnt (d ^^^ ksNext s.ks) s with
      | .ok t => emitNone (t.absorb (ksNext s.ks) (chk8 s.ck (d ^^^ ksNext s.ks)))
      | .error f => .fault f

/-- DECB (R141). -/
def execDecb (d : Byte) (s : State) : Out := decbAt Config.nMax d s

/-- The frame ends with reason `r`: VALID with PLEN = CNT where there is none, else INVALID with PLEN = 0 (R142). -/
def endFrame (r : Rsn) (s : State) : State :=
  match r with
  | .noReason => { s.setResult .valid .noReason s.cnt with mode := .idle }
  | r => { s.setResult .invalid r 0 with mode := .idle }

/-- DECE (R142): SEQ unless DEC; else the frame is validated against the received checksum and its reason emitted. -/
def execDece (d : Byte) (s : State) : Out :=
  requireMode .dec s <|
    emit .rslt ((decodeReason d s).code.setWidth 8) (endFrame (decodeReason d s) s)

/-- DEC1 (R143): SEQ unless IDLE; else INVALID with reason SHORT. The byte is not examined. -/
def execDec1 (_d : Byte) (s : State) : Out :=
  requireMode .idle s <|
    emit .rslt (Rsn.short.code.setWidth 8) (s.clearCounts.setResult .invalid .short 0)

/-- RDPAY for a capacity `n` (R144): NOTVALID unless a decode ended VALID, RANGE at `D >= PLEN`; else `PBUF[D]`. -/
def rdpayAt (n d : Byte) (s : State) : Out :=
  if s.res = .valid then
    if payloadIndexInRange d s then
      match loadPayload n d s with
      | .ok v => emit .pay v s
      | .error f => .fault f
    else raise .range s
  else raise .notValid s

/-- RDPAY (R144). -/
def execRdpay (d : Byte) (s : State) : Out := rdpayAt Config.nMax d s

end Sys2Proof.Machine
end

