-- ==== Sys2Proof/Machine/Encoder.lean ====
section
/-! DEFINITION. The frame encoder: ENCS, ENCB and ENCE (spec 41_frame_encode.md). -/

namespace Sys2Proof.Machine

/-- ENCS (R120): SEQ unless IDLE, SEED0 for a zero seed; else KS and CK load the seed and it is emitted in the clear. -/
def execEncs (d : Byte) (s : State) : Out :=
  requireMode .idle s <|
    if d = 0 then raise .seed0 s
    else emit .seed d { s.loadSeed d with zs := false, ovf := false, mode := .enc }

/-- ENCB for a capacity `n` (R121): SEQ unless ENC, OVERFLOW at `CNT == N_MAX`; else the byte is scrambled with the next
keystream byte and CK absorbs the UNSCRAMBLED byte. -/
def encbAt (n d : Byte) (s : State) : Out :=
  requireMode .enc s <|
    if s.cnt = n then raise .overflow s
    else emit .data (d ^^^ ksNext s.ks) (s.absorb (ksNext s.ks) (chk8 s.ck d))

/-- ENCB (R121). -/
def execEncb (d : Byte) (s : State) : Out := encbAt Config.nMax d s

/-- ENCE (R122): SEQ unless ENC, EMPTY at `CNT == 0`, LENGTH when CFG demands another length; else the checksum. -/
def execEnce (s : State) : Out :=
  requireMode .enc s <|
    if s.cnt = 0 then raise .empty s
    else if lengthWrong s then raise .length s
    else emit .check s.ck { s with mode := .idle }

end Sys2Proof.Machine
end

