-- ==== Sys2Proof/Machine/Mapper.lean ====
section
/-! DEFINITION. MAP (spec 43_symbol_map.md R172). -/

namespace Sys2Proof.Machine

/-- MAP (R172): the byte with its symbol pair; no state changes; legal in every MODE. -/
def execMap (d : Byte) (s : State) : Out := emit .map d s

end Sys2Proof.Machine
end

