-- ==== Sys2Proof/Machine/Primitive.lean ====
section
/-! DEFINITION. The commands on the standalone scrambler SR: SSET, SSTEP and SCHK (spec 40_scrambler.md). All are legal in every
MODE and touch no register of the frame engine. -/

namespace Sys2Proof.Machine

/-- SR takes `v`, and the new value is the response's byte (R108, R109). -/
def updateSr (v : Byte) (s : State) : Out := emit .prim v { s with sr := v }

/-- SSET (R107): `SR <- D`, no output byte. -/
def execSset (d : Byte) (s : State) : Out := emitNone { s with sr := d }

/-- SSTEP (R108): `SR <- step(SR, B)`. -/
def execSstep (b : Bool) (s : State) : Out := updateSr (lfsrStep s.sr b) s

/-- SCHK (R109): `SR <- chk8(SR, D)`. -/
def execSchk (d : Byte) (s : State) : Out := updateSr (chk8 s.sr d) s

end Sys2Proof.Machine
end

