-- ==== Sys2Proof/Syntax.lean ====
section
/-! DEFINITION. The command set, one constructor per row of spec/opcode_table.json (30_encoding.md R62), and the
assembler's lines and pseudo-instructions (R80, R81). -/

namespace Sys2Proof

/-- A command with its operand. A bit that a command ignores (R61: D of NOP, CLRERR, ABORT, SRST and ENCE, `D[7:1]` of
SSTEP) is not kept: it 'has no effect on any state or response' (log 7). -/
inductive Instr where
  /-- do nothing (R190) -/
  | nop
  /-- clear the error registers (R191) -/
  | clrerr
  /-- abandon the current frame (R192) -/
  | abort
  /-- soft reset (R193) -/
  | srst
  /-- set the standalone scrambler (R107) -/
  | sset (d : Byte)
  /-- one scrambler step on SR with `bit_xor = D[0]` (R108) -/
  | sstep (b : Bool)
  /-- absorb one byte into SR (R109) -/
  | schk (d : Byte)
  /-- start an encode frame with seed D (R120) -/
  | encs (d : Byte)
  /-- encode one payload byte (R121) -/
  | encb (d : Byte)
  /-- end an encode frame (R122) -/
  | ence
  /-- descramble one payload byte (R141) -/
  | decb (d : Byte)
  /-- end a decode frame; D is the received checksum (R142) -/
  | dece (d : Byte)
  /-- start a decode frame; D is the received seed (R140) -/
  | decs (d : Byte)
  /-- a frame that is one byte long (R143) -/
  | dec1 (d : Byte)
  /-- map one byte to its two symbols (R172) -/
  | map (d : Byte)
  /-- write the expected payload length (R194) -/
  | cfgw (d : Byte)
  /-- read a register by index (R195) -/
  | rdreg (d : Byte)
  /-- read one byte of the validated payload (R144) -/
  | rdpay (d : Byte)
  deriving DecidableEq, Repr

/-- The mnemonic of a command, letter for letter as R62 has it. -/
def Instr.mnemonic : Instr → String
  | .nop => "NOP"
  | .clrerr => "CLRERR"
  | .abort => "ABORT"
  | .srst => "SRST"
  | .sset _ => "SSET"
  | .sstep _ => "SSTEP"
  | .schk _ => "SCHK"
  | .encs _ => "ENCS"
  | .encb _ => "ENCB"
  | .ence => "ENCE"
  | .decb _ => "DECB"
  | .dece _ => "DECE"
  | .decs _ => "DECS"
  | .dec1 _ => "DEC1"
  | .map _ => "MAP"
  | .cfgw _ => "CFGW"
  | .rdreg _ => "RDREG"
  | .rdpay _ => "RDPAY"

/-- One assembler line for a command: a mnemonic and, where it takes one, a number (R80). -/
structure Line where
  mnemonic : String
  operand : Option Nat
  deriving DecidableEq, Repr

/-- The pseudo-instructions of R81: assembler macros, not commands. -/
inductive Pseudo where
  /-- `ENCODE s, p0, ..., p(N-1)` -/
  | encode (seed : Byte) (payload : List Byte)
  /-- `DECODE f0, ..., f(L-1)` -/
  | decode (frame : List Byte)
  /-- `READPAY n` -/
  | readpay (n : Nat)
  /-- `CHECKSUM s, b0, ..., b(M-1)` -/
  | checksum (seed : Byte) (bytes : List Byte)
  /-- `KEYSTREAM s, n` -/
  | keystream (seed : Byte) (n : Nat)
  /-- `SYMBOLS b0, ..., b(M-1)` -/
  | symbols (bytes : List Byte)
  deriving DecidableEq, Repr

end Sys2Proof
end

