-- ==== Sys2Proof/Machine/Dispatch.lean ====
section
/-! DEFINITION. One arm per command, each one call of its meaning. -/

namespace Sys2Proof.Machine

/-- The transition of one accepted command (spec 00_scope.md R6): state and response. -/
def exec (i : Instr) (s : State) : Host.Outcome State Fault Refusal :=
  match i with
  | .nop => Sys2Proof.Machine.execNop s
  | .clrerr => Sys2Proof.Machine.execClrerr s
  | .abort => Sys2Proof.Machine.execAbort s
  | .srst => Sys2Proof.Machine.execSrst s
  | .sset d => Sys2Proof.Machine.execSset d s
  | .sstep b => Sys2Proof.Machine.execSstep b s
  | .schk d => Sys2Proof.Machine.execSchk d s
  | .encs d => Sys2Proof.Machine.execEncs d s
  | .encb d => Sys2Proof.Machine.execEncb d s
  | .ence => Sys2Proof.Machine.execEnce s
  | .decb d => Sys2Proof.Machine.execDecb d s
  | .dece d => Sys2Proof.Machine.execDece d s
  | .decs d => Sys2Proof.Machine.execDecs d s
  | .dec1 d => Sys2Proof.Machine.execDec1 d s
  | .map d => Sys2Proof.Machine.execMap d s
  | .cfgw d => Sys2Proof.Machine.execCfgw d s
  | .rdreg d => Sys2Proof.Machine.execRdreg d s
  | .rdpay d => Sys2Proof.Machine.execRdpay d s

end Sys2Proof.Machine
end

