-- ==== Sys2Proof/Decode.lean ====
section
/-! DEFINITION. The decoder, total on every 16-bit word (spec 30_encoding.md R60 to R64), then the encoder and the opcode
map of R62. -/

namespace Sys2Proof

/-- Why a word is no command (R63). Raised by `decode`; the step answers every one of them with error ILLEGAL, as
R63 says, and goes on. -/
inductive DecodeError where
  /-- RZ, bits [11:10], is not 00. -/
  | reservedBits
  /-- OP is 0x7 to 0xF. -/
  | unassignedOp
  /-- OP is 0x1 to 0x6 and the pair (OP, SUB) is unassigned. -/
  | unassignedSub
  deriving DecidableEq, Repr

/-- OP, bits [15:12] (R60). -/
def opField (w : CmdWord) : BitVec 4 := w.extractLsb' 12 4

/-- RZ, bits [11:10] (R60). -/
def rzField (w : CmdWord) : BitVec 2 := w.extractLsb' 10 2

/-- SUB, bits [9:8] (R60). -/
def subField (w : CmdWord) : BitVec 2 := w.extractLsb' 8 2

/-- D, bits [7:0] (R60). -/
def dField (w : CmdWord) : Byte := w.extractLsb' 0 8

/-- SSTEP's operand `B = D[0]`, 1 meaning true (R61). -/
def bitXorOf (d : Byte) : Bool := d.getLsbD 0

/-- The command that (OP, SUB) selects, with operand `d` (R64). -/
def selectCommand (op sub : Nat) (d : Byte) : Except DecodeError Instr :=
  match op, sub with
  | 0, 0 => .ok .nop
  | 0, 1 => .ok .clrerr
  | 0, 2 => .ok .abort
  | 0, 3 => .ok .srst
  | 1, 0 => .ok (.sset d)
  | 1, 1 => .ok (.sstep (bitXorOf d))
  | 1, 2 => .ok (.schk d)
  | 2, 0 => .ok (.encs d)
  | 2, 1 => .ok (.encb d)
  | 2, 2 => .ok .ence
  | 3, 0 => .ok (.decb d)
  | 3, 1 => .ok (.dece d)
  | 3, 2 => .ok (.decs d)
  | 3, 3 => .ok (.dec1 d)
  | 4, 0 => .ok (.map d)
  | 5, 0 => .ok (.cfgw d)
  | 6, 0 => .ok (.rdreg d)
  | 6, 1 => .ok (.rdpay d)
  | op, _ => if op ≤ 6 then .error .unassignedSub else .error .unassignedOp

/-- The decode procedure of R64: RZ first, then (OP, SUB). -/
def decode (w : CmdWord) : Except DecodeError Instr :=
  if rzField w = 0 then selectCommand (opField w).toNat (subField w).toNat (dField w) else .error .reservedBits

/-- R62's `match` of a command: its word with D = 0. -/
def Instr.matchBits : Instr → CmdWord
  | .nop => 0x0000
  | .clrerr => 0x0100
  | .abort => 0x0200
  | .srst => 0x0300
  | .sset _ => 0x1000
  | .sstep _ => 0x1100
  | .schk _ => 0x1200
  | .encs _ => 0x2000
  | .encb _ => 0x2100
  | .ence => 0x2200
  | .decb _ => 0x3000
  | .dece _ => 0x3100
  | .decs _ => 0x3200
  | .dec1 _ => 0x3300
  | .map _ => 0x4000
  | .cfgw _ => 0x5000
  | .rdreg _ => 0x6000
  | .rdpay _ => 0x6100

/-- The D field of a command; ignored bits are written 0 (R61, R80). -/
def Instr.operandByte : Instr → Byte
  | .nop => 0
  | .clrerr => 0
  | .abort => 0
  | .srst => 0
  | .sset d => d
  | .sstep b => if b then 1 else 0
  | .schk d => d
  | .encs d => d
  | .encb d => d
  | .ence => 0
  | .decb d => d
  | .dece d => d
  | .decs d => d
  | .dec1 d => d
  | .map d => d
  | .cfgw d => d
  | .rdreg d => d
  | .rdpay d => d

/-- The command word `match | D` (R80). -/
def encode (i : Instr) : CmdWord := i.matchBits ||| i.operandByte.setWidth 16

/-- The D bits that a command uses: all eight, D[0] alone, or none (R61). -/
def Instr.usedBits : Instr → Byte
  | .nop => 0x00
  | .clrerr => 0x00
  | .abort => 0x00
  | .srst => 0x00
  | .sset _ => 0xFF
  | .sstep _ => 0x01
  | .schk _ => 0xFF
  | .encs _ => 0xFF
  | .encb _ => 0xFF
  | .ence => 0x00
  | .decb _ => 0xFF
  | .dece _ => 0xFF
  | .decs _ => 0xFF
  | .dec1 _ => 0xFF
  | .map _ => 0xFF
  | .cfgw _ => 0xFF
  | .rdreg _ => 0xFF
  | .rdpay _ => 0xFF

/-- One row of the opcode map: a word selects the command when `(word & mask) == match` (R62). -/
structure OpcodeRow where
  mnemonic : String
  matchBits : CmdWord
  maskBits : CmdWord
  deriving DecidableEq, Repr

/-- `(word & mask) == match` (R62). -/
def OpcodeRow.selects (r : OpcodeRow) (w : CmdWord) : Bool := w &&& r.maskBits == r.matchBits

/-- The opcode map of R62, row for row. -/
def opcodeTable : List OpcodeRow := [
  ⟨"NOP", 0x0000, 0xFF00⟩, ⟨"CLRERR", 0x0100, 0xFF00⟩, ⟨"ABORT", 0x0200, 0xFF00⟩, ⟨"SRST", 0x0300, 0xFF00⟩,
  ⟨"SSET", 0x1000, 0xFF00⟩, ⟨"SSTEP", 0x1100, 0xFF00⟩, ⟨"SCHK", 0x1200, 0xFF00⟩,
  ⟨"ENCS", 0x2000, 0xFF00⟩, ⟨"ENCB", 0x2100, 0xFF00⟩, ⟨"ENCE", 0x2200, 0xFF00⟩,
  ⟨"DECB", 0x3000, 0xFF00⟩, ⟨"DECE", 0x3100, 0xFF00⟩, ⟨"DECS", 0x3200, 0xFF00⟩, ⟨"DEC1", 0x3300, 0xFF00⟩,
  ⟨"MAP", 0x4000, 0xFF00⟩, ⟨"CFGW", 0x5000, 0xFF00⟩, ⟨"RDREG", 0x6000, 0xFF00⟩, ⟨"RDPAY", 0x6100, 0xFF00⟩]

/-- The host's question: the instruction the decoder reads from a word of `nbits` bits, every bit above them 0.
Command words are parallel and have no byte order (20_memory.md R44). -/
def decodeTableWord (nbits w : Nat) : Option Instr :=
  match decode (BitVec.ofNat 16 (w % 2 ^ nbits)) with
  | .ok i => some i
  | .error _ => none

end Sys2Proof
end

