-- ==== Sys2Proof/Machine/Ports.lean ====
section
/-! DEFINITION. The ports and one rising edge of `clk` (spec 10_state.md R30 to R33, 60_exceptions.md R214). -/

namespace Sys2Proof.Machine

/-- The host drives nothing: no reset, no command, no response taken (60_exceptions.md R222, log 1). -/
def Pins.quiet : Pins := { rst := false, cmdValid := false, cmdData := 0, rspReady := false }

/-- The host presents command word `w` and takes a response. -/
def Pins.command (w : CmdWord) : Pins := { rst := false, cmdValid := true, cmdData := w, rspReady := true }

/-- The host presents no command and takes a response. -/
def Pins.collect : Pins := { rst := false, cmdValid := false, cmdData := 0, rspReady := true }

/-- The pins at the coming edge: the next sample, or quiet pins when the host drives nothing more. -/
def State.pins (s : State) : Pins :=
  match s.inputs with
  | [] => Pins.quiet
  | p :: _ => p

/-- The edge has come: its sample is used up and it is counted. -/
def State.tick (s : State) : State := { s with inputs := s.inputs.tail, edges := s.edges + 1 }

/-- `cmd_ready = !rst && (!rsp_valid || rsp_ready)` (R31). -/
def cmdReady (p : Pins) (s : State) : Bool := !p.rst && (!s.rsp.isSome || p.rspReady)

/-- A command is accepted at an edge with `rst == 0`, `cmd_valid == 1` and `cmd_ready == 1` (R31). -/
def accepts (p : Pins) (s : State) : Bool := !p.rst && p.cmdValid && cmdReady p s

/-- The output ports while the pins are `p` (R30 to R32). `rsp_data` is a free value while `rsp_valid` is 0 (U17, log 6). -/
def outputs (p : Pins) (s : State) : Outputs :=
  { cmdReady := cmdReady p s
    rspValid := s.rsp.isSome
    rspData := s.rsp.getD (Config.rspDataIdle s.edges) }

/-- The response that the host takes at the coming edge: 'At a rising edge with `rsp_valid == 1` and `rsp_ready == 1`, the
response is consumed' (R32, log 11). -/
def delivered (s : State) : Option RspWord := if s.pins.rspReady then s.rsp else none

/-- A rising edge with `rst == 1` (R33): every element takes its reset value, PBUF is unspecified again, and an unconsumed
response is discarded. The host's coming samples are not the block's to reset. -/
def resetEdge (s : State) : State :=
  { State.reset with inputs := s.inputs, edges := s.edges, pbufEpoch := s.edges }

/-- An accepted word is decoded and carried out; an illegal one is rejected with ILLEGAL (30_encoding.md R63, R64). -/
def acceptWord (run : Instr → State → Out) (w : CmdWord) (s : State) : Out :=
  match decode w with
  | .ok i => run i s
  | .error _ => raise .illegal s

/-- One rising edge of `clk`, with `run` as the meaning of a command. `rst` wins over a command (R214); an accepted command
replaces the response that the same edge consumes; without one, a taken response leaves `rsp_valid = 0` and an
untaken one is held (R31, R32). -/
def clockEdge (run : Instr → State → Out) (s : State) : Out :=
  if s.pins.rst then .next (resetEdge s.tick)
  else if accepts s.pins s then acceptWord run s.pins.cmdData s.tick
  else if s.pins.rspReady then .next { s.tick with rsp := none }
  else .next s.tick

end Sys2Proof.Machine
end

