-- ==== Sys2Proof/Machine/Step.lean ====
section
/-! DEFINITION. The step: one rising edge of `clk`. -/

namespace Sys2Proof.Machine

/-- One rising edge of `clk` (spec 10_state.md R31 to R33). -/
def step (s : State) : Host.Outcome State Fault Refusal := clockEdge exec s

/-- `s` with the host about to present the word `w` (its low `nbits` bits) and to take a response, before whatever else it
drives: the next step accepts and runs exactly it (log 2). -/
def State.withFetchWord (s : State) (nbits w : Nat) : State :=
  { s with inputs := Pins.command (BitVec.ofNat 16 (w % 2 ^ nbits)) :: s.inputs }

end Sys2Proof.Machine
end

