-- ==== Sys2Proof/WellFormed.lean ====
section
/-! DEFINITION. Well-formedness of what the host writes (spec 30_encoding.md R80, R81). A term of `Instr` needs no
check of its own: its operand has exactly the bits its encoding admits (R60, R61), so every term is a legal command.
The checks are those of the assembler: a line's operand, a pseudo-instruction's length and seed. -/

namespace Sys2Proof

/-- The mnemonics that take an operand (R80). -/
def operandMnemonics : List String :=
  ["SSET", "SSTEP", "SCHK", "ENCS", "ENCB", "DECB", "DECE", "DECS", "DEC1", "MAP", "CFGW", "RDREG", "RDPAY"]

/-- The mnemonics that take none and are assembled with `D = 0x00` (R80). -/
def plainMnemonics : List String := ["NOP", "CLRERR", "ABORT", "SRST", "ENCE"]

/-- R80: a known mnemonic, an operand exactly where the mnemonic takes one, a number from 0 to 255, and for SSTEP
0 or 1. -/
def Line.wellFormed (l : Line) : Bool :=
  match l.operand with
  | none => plainMnemonics.contains l.mnemonic
  | some n => operandMnemonics.contains l.mnemonic && decide (n ≤ 255) && (l.mnemonic != "SSTEP" || decide (n ≤ 1))

/-- R81, for a capacity `nMax`: ENCODE has `1 <= N <= N_MAX` and a nonzero seed, DECODE has at least one byte (L = 0 is an
assembler error), READPAY's indices fit in the 8-bit operand. The others have no condition. -/
def Pseudo.wellFormed (nMax : Byte) : Pseudo → Bool
  | .encode seed payload => seed != 0 && decide (1 ≤ payload.length) && decide (payload.length ≤ nMax.toNat)
  | .decode frame => decide (1 ≤ frame.length)
  | .readpay n => decide (n ≤ 256)
  | .checksum _ _ => true
  | .keystream _ _ => true
  | .symbols _ => true

end Sys2Proof
end

