-- ==== Sys2Proof/Machine/Assembler.lean ====
section
/-! DEFINITION. The assembler: lines and pseudo-instructions to commands and words, and the text form (spec 30_encoding.md R80,
R81; log 15). -/

namespace Sys2Proof.Machine

/-- R80: 'A line assembles to `match | D`'; no operand means `D = 0x00`. -/
def assembleLine (l : Line) : Option CmdWord :=
  if l.wellFormed then
    (opcodeTable.find? fun r => r.mnemonic == l.mnemonic).map fun r =>
      r.matchBits ||| BitVec.ofNat 16 (l.operand.getD 0)
  else none

/-- The bytes of a frame of at least two, after its first: the middle ones as DECB, the last as DECE (R81). -/
def decodeTail : List Byte → List Instr
  | [] => []
  | [c] => [.dece c]
  | b :: b' :: bs => .decb b :: decodeTail (b' :: bs)

/-- R81: the commands a pseudo-instruction stands for. -/
def expand : Pseudo → List Instr
  | .encode seed payload => .encs seed :: (payload.map .encb ++ [.ence])
  | .decode [] => []
  | .decode [f] => [.dec1 f]
  | .decode (f :: f' :: fs) => .decs f :: decodeTail (f' :: fs)
  | .readpay n => (List.range n).map fun i => .rdpay (BitVec.ofNat 8 i)
  | .checksum seed bytes => .sset seed :: bytes.map .schk
  | .keystream seed n => .sset seed :: List.replicate n (.sstep false)
  | .symbols bytes => bytes.map .map

/-- The words of a well-formed pseudo-instruction. -/
def assemblePseudo (p : Pseudo) : Option (List CmdWord) :=
  if p.wellFormed Config.nMax then some ((expand p).map encode) else none

/-! Text -/

/-- The value of a hexadecimal digit, either case. -/
def hexDigit (c : Char) : Option Nat :=
  if '0' ≤ c ∧ c ≤ '9' then some (c.toNat - '0'.toNat)
  else if 'a' ≤ c ∧ c ≤ 'f' then some (c.toNat - 'a'.toNat + 10)
  else if 'A' ≤ c ∧ c ≤ 'F' then some (c.toNat - 'A'.toNat + 10)
  else none

/-- Digits in base `base`, continuing from `acc`. -/
def digitsFrom (base acc : Nat) : List Char → Option Nat
  | [] => some acc
  | c :: cs =>
    match hexDigit c with
    | some v => if v < base then digitsFrom base (acc * base + v) cs else none
    | none => none

/-- A number: `0x` and hexadecimal digits, or decimal digits (R80). -/
def parseNumber : List Char → Option Nat
  | [] => none
  | ['0', 'x'] => none
  | '0' :: 'x' :: cs => digitsFrom 16 0 cs
  | cs => digitsFrom 10 0 cs

/-- The register names of 10_state.md R27, in index order. -/
def registerNames : List (List Char) :=
  [['S', 'T', 'A', 'T', 'U', 'S'], ['E', 'R', 'R', 'C'], ['S', 'R'], ['K', 'S'], ['C', 'K'], ['C', 'N', 'T'],
   ['P', 'L', 'E', 'N'], ['C', 'F', 'G'], ['F', 'L', 'A', 'G', 'S'], ['N', 'M', 'A', 'X']]

/-- An operand: a number, or for RDREG a register's name (R80). -/
def parseOperand (mnemonic : List Char) (cs : List Char) : Option Nat :=
  match parseNumber cs with
  | some n => some n
  | none => if mnemonic = ['R', 'D', 'R', 'E', 'G'] then registerNames.idxOf? cs else none

/-- The line up to its comment, which starts with `;` (R80). -/
def withoutComment (cs : List Char) : List Char := cs.takeWhile (· ≠ ';')

/-- Words separated by blanks and commas. -/
def wordsFrom (cur : List Char) : List Char → List (List Char)
  | [] => if cur = [] then [] else [cur]
  | c :: cs =>
    if c = ' ' ∨ c = '\t' ∨ c = ',' then (if cur = [] then wordsFrom [] cs else cur :: wordsFrom [] cs)
    else wordsFrom (cur ++ [c]) cs

/-- Every word a number. -/
def parseNumbers : List (List Char) → Option (List Nat)
  | [] => some []
  | w :: ws =>
    match parseNumber w, parseNumbers ws with
    | some n, some ns => some (n :: ns)
    | _, _ => none

/-- Numbers from 0 to 255 as bytes. -/
def toBytes (ns : List Nat) : Option (List Byte) :=
  if ns.all (fun n => decide (n ≤ 255)) then some (ns.map (BitVec.ofNat 8)) else none

/-- The pseudo-instruction that a mnemonic and its numbers spell (R81). -/
def pseudoOf (mnemonic : List Char) (ns : List Nat) : Option Pseudo :=
  if mnemonic = ['E', 'N', 'C', 'O', 'D', 'E'] then
    match toBytes ns with
    | some (s :: p) => some (.encode s p)
    | _ => none
  else if mnemonic = ['D', 'E', 'C', 'O', 'D', 'E'] then (toBytes ns).map .decode
  else if mnemonic = ['R', 'E', 'A', 'D', 'P', 'A', 'Y'] then
    match ns with
    | [n] => some (.readpay n)
    | _ => none
  else if mnemonic = ['C', 'H', 'E', 'C', 'K', 'S', 'U', 'M'] then
    match toBytes ns with
    | some (s :: bs) => some (.checksum s bs)
    | _ => none
  else if mnemonic = ['K', 'E', 'Y', 'S', 'T', 'R', 'E', 'A', 'M'] then
    match ns with
    | [s, n] => if s ≤ 255 then some (.keystream (BitVec.ofNat 8 s) n) else none
    | _ => none
  else if mnemonic = ['S', 'Y', 'M', 'B', 'O', 'L', 'S'] then (toBytes ns).map .symbols
  else none

/-- The words of one source line: a command (R80), a pseudo-instruction (R81), or nothing on an empty line. -/
def assembleText (line : List Char) : Option (List CmdWord) :=
  match wordsFrom [] (withoutComment line) with
  | [] => some []
  | [m] =>
    match assembleLine ⟨String.ofList m, none⟩ with
    | some w => some [w]
    | none => (pseudoOf m []).bind assemblePseudo
  | m :: x :: xs =>
    match xs, (parseOperand m x).bind fun n => assembleLine ⟨String.ofList m, some n⟩ with
    | [], some w => some [w]
    | _, _ => ((parseNumbers (x :: xs)).bind (pseudoOf m)).bind assemblePseudo

/-- The words of a source text, line by line. -/
def assembleProgram : List (List Char) → Option (List CmdWord)
  | [] => some []
  | l :: ls =>
    match assembleText l, assembleProgram ls with
    | some ws, some more => some (ws ++ more)
    | _, _ => none

end Sys2Proof.Machine
end

