-- ==== Sys2Proof/Machine/Frame.lean ====
section
/-! DEFINITION. The frame as the source gives it, whole byte sequences with no machine: what the streaming engine is compared
with (spec 20_memory.md R41, 41_frame_encode.md R123, 42_frame_decode.md R146). -/

namespace Sys2Proof.Machine

/-- XOR of the bytes with the keystream from state `k`, byte i with the (i+1)-th keystream byte (R41). It scrambles a
payload and descrambles it alike. -/
def scramble (k : Byte) : List Byte → List Byte
  | [] => []
  | b :: bs => (b ^^^ ksNext k) :: scramble (ksNext k) bs

/-- `seed | scrambled payload | checksum` (R41, R123), for a payload of at least one byte. DESIGN CHOICE (log 16): for an empty
payload, whose checksum the spec leaves open (91 N8, 90 C3), this gives `[seed, seed]`; the engine never emits such a
frame (R122). -/
def encodeFrame (seed : Byte) (payload : List Byte) : List Byte :=
  seed :: (scramble seed payload ++ [checksum seed payload])

/-- The source's `decode_payload` (42_frame_decode.md R142, R143, R146): at least two bytes, a nonzero seed, and the last byte
equal to the checksum of the recovered payload. DESIGN CHOICE (log 16): of a two-byte frame, where the source's answer is
ambiguous (R146, 90 C3, 91 N8), it takes the reading in which the checksum of no byte is the seed, so `[s, s]` with `s`
nonzero gives the empty payload; the engine answers INVALID/EMPTY there (R142). -/
def decodeFrame (frame : List Byte) : Option (List Byte) :=
  match frame with
  | [] => none
  | seed :: rest =>
    match rest.getLast? with
    | none => none
    | some c =>
      if seed = 0 then none
      else if checksum seed (scramble seed rest.dropLast) = c then some (scramble seed rest.dropLast)
      else none

/-- The host's convention: payload byte 0 is the least significant (R41). The block never forms this integer. -/
def payloadInteger : List Byte → Nat
  | [] => 0
  | b :: bs => b.toNat + 256 * payloadInteger bs

end Sys2Proof.Machine
end

