-- ==== Sys2Proof/Machine/Stream.lean ====
section
/-! DEFINITION. Sequences: commands one after another with their responses, and the streams the responses carry
(spec 20_memory.md R49, 30_encoding.md R73). -/

namespace Sys2Proof.Machine

/-- The commands in order, each seeing the state the earlier ones left: the responses in the same order and the last state
(R49). `none` where a command does not complete. -/
def runCommands : List Instr → State → Option (List RspWord × State)
  | [], s => some ([], s)
  | i :: is, s =>
    match exec i s with
    | .next t => (runCommands is t).map fun r => (t.rsp.toList ++ r.1, r.2)
    | .fault _ => none
    | .refused _ => none

/-- `k` rising edges, stopping where a step stops. -/
def runEdges : Nat → State → Out
  | 0, s => .next s
  | k + 1, s =>
    match step s with
    | .next t => runEdges k t
    | .fault f => .fault f
    | .refused r => .refused r

/-- The responses that the host takes over the next `k` edges, in order (10_state.md R32). -/
def deliveries : Nat → State → List RspWord
  | 0, _ => []
  | k + 1, s =>
    match step s with
    | .next t => (delivered s).toList ++ deliveries k t
    | .fault _ => []
    | .refused _ => []

/-- A response carries a frame byte: OV with tag SEED, DATA or CHECK (R73). -/
def isFrameResponse (w : RspWord) : Bool :=
  rspOv w && (rspTag w == Tag.seed.code || rspTag w == Tag.data.code || rspTag w == Tag.check.code)

/-- R73: the frame byte stream. -/
def frameBytes (ws : List RspWord) : List Byte := (ws.filter isFrameResponse).map rspByte

/-- R73: the symbol stream, `[SYM_HI, SYM_LO]` of every response with SV = 1. -/
def symbolStream (ws : List RspWord) : List SymCode := (ws.filter rspSv).flatMap fun w => [rspSymHi w, rspSymLo w]

/-- The symbols of a byte sequence, high nibble first (R43, R171). -/
def symbolsOf (bs : List Byte) : List SymCode := bs.flatMap fun b => [(byteToSymbolPair b).1, (byteToSymbolPair b).2]

end Sys2Proof.Machine
end

