-- ==== Sys2Proof/Safety.lean ====
section
/-! DEFINITION. What a safe run keeps, and the terms the statements use. -/

namespace Sys2Proof.Machine

/-- The outcome is a next state. -/
def Completes (o : Out) : Prop := ∃ t, o = .next t

/-- What every reachable state of a block with capacity `n` satisfies: the invariants that the rules of spec 10_state.md
state, and what they rest on. -/
structure CoherentAt (n : Byte) (s : State) : Prop where
  /-- PBUF keeps its canonical form, indices below N_MAX (R26) -/
  pbuf_wf : Memory.wfAt n.toNat s.pbuf = true
  /-- R17: `0 <= CNT <= N_MAX` -/
  cnt_le : s.cnt ≤ n
  /-- R23: `0 <= CFG <= N_MAX` always holds -/
  cfg_le : s.cfg ≤ n
  /-- R22: `RES == VALID` implies `1 <= PLEN <= N_MAX` -/
  plen_valid : s.res = .valid → 1 ≤ s.plen ∧ s.plen ≤ n
  /-- R22: `RES != VALID` implies `PLEN == 0` -/
  plen_other : s.res ≠ .valid → s.plen = 0
  /-- R21: RSN is NONE exactly when RES is NONE or VALID -/
  rsn_iff : s.rsn = .noReason ↔ s.res ≠ .invalid
  /-- R24, R25, R211: ERRF is set exactly while ERRC holds an error's code -/
  err_iff : s.errf = true ↔ s.errc ≠ .noError
  /-- R20: RES is NONE while a decode is in progress -/
  dec_res : s.mode = .dec → s.res = .noResult
  /-- R18, R19: ENCS clears ZS and OVF, and no encode command sets them -/
  enc_flags : s.mode = .enc → s.zs = false ∧ s.ovf = false
  /-- 41_frame_encode.md R120, 40_scrambler.md R106: an encode's keystream register is never 0 -/
  enc_ks : s.mode = .enc → s.ks ≠ 0
  /-- R18, R106 (b): in a decode, KS is 0 exactly when the seed was -/
  dec_zs : s.mode = .dec → (s.zs = true ↔ s.ks = 0)
  /-- R26: the decode in progress has written every entry it counts -/
  dec_written : s.mode = .dec → ∀ i, i < s.cnt.toNat → (readByte s.pbuf i).isSome = true
  /-- R26: every readable entry was written -/
  valid_written : s.res = .valid → ∀ i, i < s.plen.toNat → (readByte s.pbuf i).isSome = true

/-- `CoherentAt` for this hardware's N_MAX. -/
def Coherent (s : State) : Prop := CoherentAt Config.nMax s

/-- What the decoder holds in mid-frame is what the bytes so far give (42_frame_decode.md R140, R141): there are a seed and
a recovered payload, of CNT bytes and held in PBUF, whose keystream state is KS and whose checksum is CK. -/
def DecodeInProgress (s : State) : Prop :=
  s.mode = .dec → ∃ (seed : Byte) (p : List Byte),
    p.length = s.cnt.toNat ∧ (s.zs = true ↔ seed = 0) ∧
    s.ks = Nat.iterate ksNext p.length seed ∧ s.ck = checksum seed p ∧
    ∀ i, i < p.length → readByte s.pbuf i = p[i]?

/-- The words that select a command, exactly: `word & 0xFF00 == m`, with operand `f D` (30_encoding.md R60 to R62). -/
def SelectedBy (m : CmdWord) (f : Byte → Instr) : Prop :=
  ∀ w : CmdWord, decode w = .ok (f (w.extractLsb' 0 8)) ↔ w &&& 0xFF00 = m

/-- The errors of 60_exceptions.md R210, each with its cause, in R212's order: SEQ, then the command's own checks. -/
def commandError (n : Byte) (i : Instr) (s : State) : ErrCode :=
  match i with
  | .encs d => if s.mode ≠ .idle then .seq else if d = 0 then .seed0 else .noError
  | .encb _ => if s.mode ≠ .enc then .seq else if s.cnt = n then .overflow else .noError
  | .ence =>
    if s.mode ≠ .enc then .seq else if s.cnt = 0 then .empty
    else if s.cfg ≠ 0 ∧ s.cnt ≠ s.cfg then .length else .noError
  | .decs _ => if s.mode ≠ .idle then .seq else .noError
  | .dec1 _ => if s.mode ≠ .idle then .seq else .noError
  | .decb _ => if s.mode ≠ .dec then .seq else .noError
  | .dece _ => if s.mode ≠ .dec then .seq else .noError
  | .cfgw d => if s.mode ≠ .idle then .seq else if n < d then .range else .noError
  | .rdreg d => if 0x09 < d then .range else .noError
  | .rdpay d => if s.res ≠ .valid then .notValid else if s.plen ≤ d then .range else .noError
  | .nop => .noError
  | .clrerr => .noError
  | .abort => .noError
  | .srst => .noError
  | .sset _ => .noError
  | .sstep _ => .noError
  | .schk _ => .noError
  | .map _ => .noError

/-- R71: the tag of the output byte a command produces; no other command sets OV. -/
def outputTag : Instr → Option Tag
  | .dece _ => some .rslt
  | .dec1 _ => some .rslt
  | .encs _ => some .seed
  | .encb _ => some .data
  | .ence => some .check
  | .sstep _ => some .prim
  | .schk _ => some .prim
  | .map _ => some .map
  | .rdreg _ => some .reg
  | .rdpay _ => some .pay
  | .nop => none
  | .clrerr => none
  | .abort => none
  | .srst => none
  | .sset _ => none
  | .decb _ => none
  | .decs _ => none
  | .cfgw _ => none

end Sys2Proof.Machine
end

