-- ==== Sys2Proof/Certificates/Slice0/Obligations.lean ====
section
/-! DEFINITION. The statements for the provers, from the numbered rules of spec/. -/

open Sys2Proof Sys2Proof.Machine

/-! Encoding (30_encoding.md) -/

/-- Decode and encode agree on every command with every operand (R60, R62, R80 `match | D`). -/
def Obligations.DecodeEncodeRoundTrip : Prop :=
  ∀ i : Instr, decode (encode i) = .ok i

/-- Encoding what a word decodes to gives the word back in every bit the command uses (R61, R62): no used bit is dropped by the
decoder. That the encoding has 0 in the bits the command ignores is the model's choice (log entry 7, DEDUCED): R61 and R62 do
not say what an encoding puts there; R80's assembler writes 0. -/
def Obligations.EncodeOfDecodedKeepsUsedBits : Prop :=
  ∀ (w : CmdWord) (i : Instr), decode w = .ok i → encode i = w &&& (0xFF00 ||| i.usedBits.setWidth 16)

/-- The decode procedure of R64 selects exactly by the opcode map of R62: a word that decodes matches its command's row, and
a word that matches a row decodes to that row's command; the map has 18 rows, no two with the same match, and each selects
256 words, one for each D. -/
def Obligations.DecodeFollowsOpcodeMap : Prop :=
  (∀ (w : CmdWord) (i : Instr), decode w = .ok i →
    ∃ r ∈ opcodeTable, r.mnemonic = i.mnemonic ∧ w &&& r.maskBits = r.matchBits) ∧
  (∀ (w : CmdWord) (r : OpcodeRow), r ∈ opcodeTable → w &&& r.maskBits = r.matchBits →
    ∃ i, decode w = .ok i ∧ i.mnemonic = r.mnemonic) ∧
  opcodeTable.length = 18 ∧ opcodeTable.Pairwise (fun r r' => r.matchBits ≠ r'.matchBits) ∧
  (∀ (w : CmdWord) (r : OpcodeRow), r ∈ opcodeTable →
    (w &&& r.maskBits = r.matchBits ↔ ∃ d : Byte, w = r.matchBits ||| d.setWidth 16))

/-- R63: the illegal words are those with RZ nonzero, with OP from 0x7 to 0xF, and the ten unassigned (OP, SUB) pairs; each is
rejected with ILLEGAL at the edge that accepts it (R31: rst = 0, cmd_valid = 1, and no response waits or the host takes it)
and changes nothing else. That the step uses up its sample and counts the edge is the model's choice (log entries 1
and 6). -/
def Obligations.IllegalWordsAreRejected : Prop :=
  (∀ w : CmdWord, (∃ e, decode w = .error e) ↔
    (w.extractLsb' 10 2 ≠ 0 ∨ 7 ≤ (w.extractLsb' 12 4).toNat ∨
      ((w.extractLsb' 12 4).toNat, (w.extractLsb' 8 2).toNat) ∈
        [(1, 3), (2, 3), (4, 1), (4, 2), (4, 3), (5, 1), (5, 2), (5, 3), (6, 2), (6, 3)])) ∧
  (∀ (s : State) (p : Pins) (rest : List Pins), s.inputs = p :: rest → (∃ e, decode p.cmdData = .error e) →
    p.rst = false → p.cmdValid = true → (s.rsp = none ∨ p.rspReady = true) →
    step s = .next { s with
      inputs := rest, edges := s.edges + 1, errc := .illegal, errf := true, rsp := some 0x00000001 })

/-- R61: two words that differ only in bits their command ignores are the same command. -/
def Obligations.IgnoredBitsHaveNoEffect : Prop :=
  ∀ (w w' : CmdWord) (i : Instr), decode w = .ok i →
    (w ^^^ w') &&& (0xFF00 ||| i.usedBits.setWidth 16) = 0 → decode w' = .ok i

/-- Words written out from R62 and the examples of the command rules decode to the commands they stand for. -/
def Obligations.ExampleWordsDecode : Prop :=
  decode 0x0000 = .ok .nop ∧ decode 0x0100 = .ok .clrerr ∧ decode 0x10d0 = .ok (.sset 0xd0) ∧
  decode 0x11fe = .ok (.sstep false) ∧ decode 0x1101 = .ok (.sstep true) ∧ decode 0x21b8 = .ok (.encb 0xb8) ∧
  decode 0x3157 = .ok (.dece 0x57) ∧ decode 0x40a5 = .ok (.map 0xa5) ∧ decode 0x5005 = .ok (.cfgw 5) ∧
  decode 0x6104 = .ok (.rdpay 4) ∧ decode 0x0400 = .error .reservedBits ∧ decode 0x7123 = .error .unassignedOp

/-! The scrambler functions (40_scrambler.md) -/

/-- R100: one scrambler step shifts right and XORs 0xAF when `s[0] ^ b` is 1, and equals its equations per output bit. -/
def Obligations.StepMatchesBitEquations : Prop :=
  ∀ (s : Byte) (b : Bool),
    lfsrStep s b = (if s.getLsbD 0 ≠ b then (s >>> 1) ^^^ 0xAF else s >>> 1) ∧ lfsrStep s b = stepNetwork s b

/-- R104: absorbing a byte bit by bit, the normative definition, is T of the XOR and the block's XOR network of it. -/
def Obligations.BitSerialChecksumIsTheNetwork : Prop :=
  ∀ s d : Byte, chk8 s d = eightSteps (s ^^^ d) ∧ chk8 s d = checksumNetwork (s ^^^ d)

/-- R102: T is linear over GF(2) with the stated values on the unit vectors, and equals its bit equations. -/
def Obligations.EightStepsAreLinear : Prop :=
  (∀ a b : Byte, eightSteps (a ^^^ b) = eightSteps a ^^^ eightSteps b) ∧ eightSteps 0 = 0 ∧
  ([0x01, 0x02, 0x04, 0x08, 0x10, 0x20, 0x40, 0x80].map eightSteps
    = [0x28, 0x50, 0xa0, 0x1f, 0x3e, 0x7c, 0xf8, 0xaf]) ∧
  (∀ x : Byte, eightSteps x = checksumNetwork x)

/-- R106 (a), (b): `ks_next` is a bijection with the stated inverse, and 0 is its fixed point. -/
def Obligations.KeystreamUpdateIsInvertible : Prop :=
  (∀ s : Byte, ksPrev (ksNext s) = s) ∧ (∀ s : Byte, ksNext (ksPrev s) = s) ∧ ksNext 0 = 0

/-- R106 (c): the nonzero states lie on one cycle of length 255, so the period from any of them is exactly 255, and 0 is
never reached. -/
def Obligations.KeystreamPeriodIs255 : Prop :=
  ∀ s : Byte, s ≠ 0 →
    (∀ k : Nat, Nat.iterate ksNext k s = s ↔ 255 ∣ k) ∧ (∀ k : Nat, Nat.iterate ksNext k s ≠ 0) ∧
    (∀ t : Byte, t ≠ 0 → ∃ k : Nat, k < 255 ∧ Nat.iterate ksNext k s = t)

/-- R106 (e): changing payload byte i by a nonzero e changes the checksum by `T^(N-i)(e)`, which is nonzero. -/
def Obligations.ChecksumSeesEveryByteChange : Prop :=
  ∀ (s e : Byte) (p : List Byte) (i : Nat) (h : i < p.length),
    checksum s (p.set i (p[i] ^^^ e)) = checksum s p ^^^ Nat.iterate eightSteps (p.length - i) e ∧
    (e ≠ 0 → Nat.iterate eightSteps (p.length - i) e ≠ 0)

/-! Responses and errors (30_encoding.md R70 to R73, 60_exceptions.md) -/

/-- R70, R71, R72: every field of an output response reads back as emitted: OV, the tag, the byte, and the symbol pair exactly
for SEED, DATA, CHECK and MAP. -/
def Obligations.OutputResponseFields : Prop :=
  ∀ (t : Tag) (b : Byte),
    rspCode (emitWord t b) = 0 ∧ rspOv (emitWord t b) = true ∧ rspTag (emitWord t b) = t.code ∧
    rspByte (emitWord t b) = b ∧ rspZero (emitWord t b) = 0 ∧
    (rspSv (emitWord t b) = true ↔ t = .seed ∨ t = .data ∨ t = .check ∨ t = .map) ∧
    (rspSv (emitWord t b) = true →
      rspSymHi (emitWord t b) = b.extractLsb' 4 4 ∧ rspSymLo (emitWord t b) = b.extractLsb' 0 4) ∧
    (rspSv (emitWord t b) = false → rspSymHi (emitWord t b) = 0 ∧ rspSymLo (emitWord t b) = 0)

/-- R72: SV is 1 exactly when OV is 1 and the tag is SEED, DATA, CHECK or MAP, and then SYM_HI and SYM_LO are the byte's nibbles,
else 0. Section 3 of 30_encoding.md: every command completes with one response word whose unused fields are 0, and a
rejection's word is its code alone. -/
def Obligations.EveryCommandAnswersAWellFormedResponse : Prop :=
  ∀ (i : Instr) (s : State), ∃ t w, exec i s = .next t ∧ t.rsp = some w ∧ rspZero w = 0 ∧
    (rspCode w ≠ 0 → w = (rspCode w).setWidth 32) ∧
    (rspOv w = false → rspTag w = 0 ∧ rspByte w = 0) ∧
    (rspSv w = true ↔ rspOv w = true ∧ rspTag w ∈ [Tag.seed.code, Tag.data.code, Tag.check.code, Tag.map.code]) ∧
    (rspSv w = false → rspSymHi w = 0 ∧ rspSymLo w = 0) ∧
    (rspSv w = true → rspSymHi w = (rspByte w).extractLsb' 4 4 ∧ rspSymLo w = (rspByte w).extractLsb' 0 4)

/-- R71: a command that is not rejected sets OV exactly when the table gives it a tag, and with that tag; the tags have the
codes 0 to 7. -/
def Obligations.OutputTagsFollowTheTable : Prop :=
  [Tag.rslt, .seed, .data, .check, .prim, .map, .reg, .pay].map Tag.code = [0, 1, 2, 3, 4, 5, 6, 7] ∧
  ∀ (i : Instr) (s t : State) (w : RspWord), exec i s = .next t → t.rsp = some w → rspCode w = 0 →
    match outputTag i with
    | some tag => rspOv w = true ∧ rspTag w = tag.code
    | none => rspOv w = false

/-- R210, R212: every command answers exactly the error its table row and the priority give it, or none, and an illegal word
ILLEGAL; the codes are 0 to 8 in order. -/
def Obligations.CommandErrorsFollowTheTable : Prop :=
  [ErrCode.noError, .illegal, .seq, .seed0, .overflow, .empty, .length, .range, .notValid].map ErrCode.code
    = [0, 1, 2, 3, 4, 5, 6, 7, 8] ∧
  (∀ (i : Instr) (s : State), ∃ t w, exec i s = .next t ∧ t.rsp = some w ∧
    rspCode w = (commandError Config.nMax i s).code) ∧
  (∀ (w : CmdWord) (s : State), (∃ e, decode w = .error e) → acceptWord exec w s = .next (s.rejected .illegal))

/-- R211: a rejected command changes only ERRC and ERRF and answers `zext_32(e)`. -/
def Obligations.RejectionChangesOnlyErrorRegisters : Prop :=
  ∀ (i : Instr) (s t : State) (w : RspWord), exec i s = .next t → t.rsp = some w → rspCode w ≠ 0 →
    ∃ e : ErrCode, e.code = rspCode w ∧ e ≠ .noError ∧
      t = { s with errc := e, errf := true, rsp := some (e.code.setWidth 32) }

/-- R24, R25: a command that completes without error leaves ERRF and ERRC unchanged, but for CLRERR and SRST, which clear
them. -/
def Obligations.CompletionKeepsErrorRegisters : Prop :=
  ∀ (i : Instr) (s t : State) (w : RspWord), exec i s = .next t → t.rsp = some w → rspCode w = 0 →
    if i = .clrerr ∨ i = .srst then t.errf = false ∧ t.errc = .noError
    else t.errf = s.errf ∧ t.errc = s.errc

/-- R215: however many commands follow, ERRF stays 1 until CLRERR or SRST, and ERRC holds an error's code with it. -/
def Obligations.ErrorFlagIsSticky : Prop :=
  ∀ (cmds : List Instr) (s : State), s.errf = true → s.errc ≠ .noError →
    Instr.clrerr ∉ cmds → Instr.srst ∉ cmds →
    ∃ rs t, runCommands cmds s = some (rs, t) ∧ t.errf = true ∧ t.errc ≠ .noError

/-! Commands on SR (40_scrambler.md) -/

/-- R107: SSET stores D in SR, answers the empty word and changes nothing else, in every MODE. -/
def Obligations.SsetStoresItsOperand : Prop :=
  SelectedBy 0x1000 .sset ∧
  ∀ (d : Byte) (s : State), exec (.sset d) s = .next { s with sr := d, rsp := some 0 }

/-- R108: SSTEP replaces SR by one step with B = D[0] and emits the new SR; nothing else changes, in every MODE. -/
def Obligations.SstepAdvancesSr : Prop :=
  SelectedBy 0x1100 (fun d => .sstep (d.getLsbD 0)) ∧
  ∀ (b : Bool) (s : State),
    exec (.sstep b) s = .next { s with sr := lfsrStep s.sr b, rsp := some (emitWord .prim (stepNetwork s.sr b)) }

/-- R109: SCHK absorbs D into SR and emits the new SR; nothing else changes, in every MODE. -/
def Obligations.SchkAbsorbsAByte : Prop :=
  SelectedBy 0x1200 .schk ∧
  ∀ (d : Byte) (s : State),
    exec (.schk d) s = .next { s with
      sr := chk8 s.sr d, rsp := some (emitWord .prim (checksumNetwork (s.sr ^^^ d))) }

/-- R13: nothing in the frame engine reads or writes SR: a frame command does the same for every value of SR and keeps it. -/
def Obligations.FrameEngineIgnoresSr : Prop :=
  ∀ (i : Instr) (s : State) (x : Byte),
    i.mnemonic ∈ ["ENCS", "ENCB", "ENCE", "DECB", "DECE", "DECS", "DEC1", "RDPAY"] →
    ∃ t, exec i s = .next t ∧ t.sr = s.sr ∧ exec i { s with sr := x } = .next { t with sr := x }

/-! The frame encoder (41_frame_encode.md) -/

/-- R120: ENCS in IDLE with a nonzero seed loads KS and CK, clears CNT, ZS and OVF, enters ENC and emits the seed; SEQ in
another MODE is checked before SEED0. -/
def Obligations.EncsStartsAnEncodeFrame : Prop :=
  SelectedBy 0x2000 .encs ∧
  (∀ (d : Byte) (s : State), s.mode = .idle → d ≠ 0 →
    exec (.encs d) s = .next { s with
      ks := d, ck := d, cnt := 0, zs := false, ovf := false, mode := .enc, rsp := some (emitWord .seed d) }) ∧
  (∀ (d : Byte) (s : State), s.mode ≠ .idle → exec (.encs d) s = .next (s.rejected .seq)) ∧
  (∀ s : State, s.mode = .idle → exec (.encs 0) s = .next (s.rejected .seed0))

/-- R121: ENCB in ENC below N_MAX advances KS, absorbs the UNSCRAMBLED byte into CK, counts it without wrapping and emits it
scrambled; SEQ in another MODE, OVERFLOW at N_MAX. -/
def Obligations.EncbEncodesOneByte : Prop :=
  SelectedBy 0x2100 .encb ∧
  (∀ (d : Byte) (s : State), s.mode = .enc → s.cnt ≠ Config.nMax →
    exec (.encb d) s = .next { s with
      ks := ksNext s.ks, ck := chk8 s.ck d, cnt := s.cnt + 1, rsp := some (emitWord .data (d ^^^ ksNext s.ks)) } ∧
    (s.cnt + 1).toNat = s.cnt.toNat + 1) ∧
  (∀ (d : Byte) (s : State), s.mode ≠ .enc → exec (.encb d) s = .next (s.rejected .seq)) ∧
  (∀ (d : Byte) (s : State), s.mode = .enc → s.cnt = Config.nMax → exec (.encb d) s = .next (s.rejected .overflow))

/-- R122: ENCE in ENC, after at least one byte and with the length CFG demands, returns to IDLE and emits CK; else SEQ, EMPTY,
LENGTH, in that priority, and the block stays as it was. -/
def Obligations.EnceEndsAnEncodeFrame : Prop :=
  SelectedBy 0x2200 (fun _ => .ence) ∧
  (∀ s : State, s.mode = .enc → s.cnt ≠ 0 → (s.cfg = 0 ∨ s.cnt = s.cfg) →
    exec .ence s = .next { s with mode := .idle, rsp := some (emitWord .check s.ck) }) ∧
  (∀ s : State, s.mode ≠ .enc → exec .ence s = .next (s.rejected .seq)) ∧
  (∀ s : State, s.mode = .enc → s.cnt = 0 → exec .ence s = .next (s.rejected .empty)) ∧
  (∀ s : State, s.mode = .enc → s.cnt ≠ 0 → s.cfg ≠ 0 → s.cnt ≠ s.cfg → exec .ence s = .next (s.rejected .length))

/-- R123: from IDLE, `ENCODE seed, payload` emits the frame byte stream `seed | payload XOR keystream | checksum` and its
`2 * (N + 2)` symbols, high nibble first, and ends in IDLE with CNT = N. -/
def Obligations.StreamedEncodeIsTheSourceFrame : Prop :=
  ∀ (s : State) (seed : Byte) (payload : List Byte),
    s.mode = .idle → seed ≠ 0 → 1 ≤ payload.length → payload.length ≤ 255 →
    (s.cfg = 0 ∨ s.cfg.toNat = payload.length) →
    ∃ rs t, runCommands (expand (.encode seed payload)) s = some (rs, t) ∧
      frameBytes rs = seed :: (List.zipWith (· ^^^ ·) payload (keystream seed payload.length)
        ++ [checksum seed payload]) ∧
      frameBytes rs = encodeFrame seed payload ∧
      symbolStream rs = symbolsOf (encodeFrame seed payload) ∧
      (symbolStream rs).length = 2 * (payload.length + 2) ∧
      t.mode = .idle ∧ t.cnt.toNat = payload.length

/-! The frame decoder (42_frame_decode.md) -/

/-- R140: DECS in IDLE loads KS and CK with any seed, records a zero one in ZS, drops any earlier result and enters DEC; SEQ in
another MODE. -/
def Obligations.DecsStartsADecodeFrame : Prop :=
  SelectedBy 0x3200 .decs ∧
  (∀ (d : Byte) (s : State), s.mode = .idle →
    exec (.decs d) s = .next { s with
      ks := d, ck := d, cnt := 0, zs := decide (d = 0), ovf := false, res := .noResult, rsn := .noReason, plen := 0
      mode := .dec, rsp := some 0 }) ∧
  (∀ (d : Byte) (s : State), s.mode ≠ .idle → exec (.decs d) s = .next (s.rejected .seq))

/-- R141: DECB in DEC below N_MAX advances KS, absorbs the RECOVERED byte into CK, counts it and writes it to `PBUF[CNT]`,
every other entry reading as before; at N_MAX it only sets OVF; SEQ in another MODE; no byte leaves the block. -/
def Obligations.DecbDecodesOneByte : Prop :=
  SelectedBy 0x3000 .decb ∧
  (∀ (d : Byte) (s : State), s.mode = .dec → s.cnt ≠ Config.nMax →
    ∃ m : Memory,
      exec (.decb d) s = .next { s with
        ks := ksNext s.ks, ck := chk8 s.ck (d ^^^ ksNext s.ks), cnt := s.cnt + 1, pbuf := m, rsp := some 0 } ∧
      readByte m s.cnt.toNat = some (d ^^^ ksNext s.ks) ∧
      (∀ a : Nat, a ≠ s.cnt.toNat → readByte m a = readByte s.pbuf a)) ∧
  (∀ (d : Byte) (s : State), s.mode = .dec → s.cnt = Config.nMax →
    exec (.decb d) s = .next { s with ovf := true, rsp := some 0 }) ∧
  (∀ (d : Byte) (s : State), s.mode ≠ .dec → exec (.decb d) s = .next (s.rejected .seq))

/-- R142: DECE in DEC ends the frame: VALID with PLEN = CNT where no check fails, else INVALID with the first reason of
ZERO_SEED, OVERFLOW, EMPTY, LENGTH, MISMATCH and PLEN = 0; the reason's code is the output byte; SEQ in another MODE. -/
def Obligations.DeceValidatesTheFrame : Prop :=
  SelectedBy 0x3100 .dece ∧
  (∀ (d : Byte) (s : State), s.mode = .dec → s.zs = false → s.ovf = false → s.cnt ≠ 0 →
    (s.cfg = 0 ∨ s.cnt = s.cfg) → s.ck = d →
    exec (.dece d) s = .next { s with
      res := .valid, rsn := .noReason, plen := s.cnt, mode := .idle, rsp := some (emitWord .rslt 0) }) ∧
  (∀ (d : Byte) (s : State), s.mode = .dec → s.zs = true →
    exec (.dece d) s = .next { s with
      res := .invalid, rsn := .zeroSeed, plen := 0, mode := .idle, rsp := some (emitWord .rslt 2) }) ∧
  (∀ (d : Byte) (s : State), s.mode = .dec → s.zs = false → s.ovf = true →
    exec (.dece d) s = .next { s with
      res := .invalid, rsn := .overflow, plen := 0, mode := .idle, rsp := some (emitWord .rslt 3) }) ∧
  (∀ (d : Byte) (s : State), s.mode = .dec → s.zs = false → s.ovf = false → s.cnt = 0 →
    exec (.dece d) s = .next { s with
      res := .invalid, rsn := .empty, plen := 0, mode := .idle, rsp := some (emitWord .rslt 4) }) ∧
  (∀ (d : Byte) (s : State), s.mode = .dec → s.zs = false → s.ovf = false → s.cnt ≠ 0 →
    s.cfg ≠ 0 → s.cnt ≠ s.cfg →
    exec (.dece d) s = .next { s with
      res := .invalid, rsn := .length, plen := 0, mode := .idle, rsp := some (emitWord .rslt 5) }) ∧
  (∀ (d : Byte) (s : State), s.mode = .dec → s.zs = false → s.ovf = false → s.cnt ≠ 0 →
    (s.cfg = 0 ∨ s.cnt = s.cfg) → s.ck ≠ d →
    exec (.dece d) s = .next { s with
      res := .invalid, rsn := .mismatch, plen := 0, mode := .idle, rsp := some (emitWord .rslt 6) }) ∧
  (∀ (d : Byte) (s : State), s.mode ≠ .dec → exec (.dece d) s = .next (s.rejected .seq))

/-- R143: DEC1 in IDLE reports INVALID/SHORT whatever its byte, clears CNT, ZS and OVF and keeps KS, CK and MODE; SEQ in
another MODE. -/
def Obligations.Dec1ReportsAShortFrame : Prop :=
  SelectedBy 0x3300 .dec1 ∧
  (∀ (d : Byte) (s : State), s.mode = .idle →
    exec (.dec1 d) s = .next { s with
      cnt := 0, zs := false, ovf := false, res := .invalid, rsn := .short, plen := 0
      rsp := some (emitWord .rslt 1) }) ∧
  (∀ (d : Byte) (s : State), s.mode ≠ .idle → exec (.dec1 d) s = .next (s.rejected .seq))

/-- R144: RDPAY emits `PBUF[D]` while RES is VALID and D is below PLEN, with no other effect and in every MODE; NOTVALID is
checked before RANGE. The emitted value is the byte written at D; where nothing was written, which no run from reset shows,
it is some byte, the model's free value (log 4). -/
def Obligations.RdpayReadsTheValidatedPayload : Prop :=
  SelectedBy 0x6100 .rdpay ∧
  (∀ (d : Byte) (s : State), s.res = .valid → d < s.plen →
    ∃ v, exec (.rdpay d) s = .next { s with rsp := some (emitWord .pay v) } ∧
      (∀ u, readByte s.pbuf d.toNat = some u → v = u)) ∧
  (∀ (d : Byte) (s : State), s.res ≠ .valid → exec (.rdpay d) s = .next (s.rejected .notValid)) ∧
  (∀ (d : Byte) (s : State), s.res = .valid → s.plen ≤ d → exec (.rdpay d) s = .next (s.rejected .range))

/-- R146: from IDLE with CFG = 0, `DECODE f` ends VALID exactly when the source's `decode_payload(f)` returns a payload, which PBUF
then holds; else INVALID with the stated reason, for frames of every length the commands can present. -/
def Obligations.StreamedDecodeIsTheSourceDecode : Prop :=
  ∀ (s : State) (f : List Byte), s.mode = .idle → s.cfg = 0 → 1 ≤ f.length →
    ∃ rs t, runCommands (expand (.decode f)) s = some (rs, t) ∧ t.mode = .idle ∧
      (3 ≤ f.length → f.length ≤ 257 →
        (∀ p, decodeFrame f = some p →
          t.res = .valid ∧ t.rsn = .noReason ∧ t.plen.toNat = f.length - 2 ∧ p.length = f.length - 2 ∧
          ∀ i, i < f.length - 2 → readByte t.pbuf i = p[i]?) ∧
        (decodeFrame f = none →
          t.res = .invalid ∧ t.plen = 0 ∧ t.rsn = if f.head? = some 0 then .zeroSeed else .mismatch)) ∧
      (f.length = 1 → t.res = .invalid ∧ t.rsn = .short) ∧
      (f.length = 2 → t.res = .invalid ∧ t.rsn = if f.head? = some 0 then .zeroSeed else .empty) ∧
      (257 < f.length → t.res = .invalid ∧ t.rsn = if f.head? = some 0 then .zeroSeed else .overflow)

/-- R147 (a): for every nonzero seed and every payload of 1 to 255 bytes, what the encoder emits decodes VALID, and READPAY
then delivers the same payload. -/
def Obligations.EncodeThenDecodeReturnsThePayload : Prop :=
  ∀ (s : State) (seed : Byte) (payload : List Byte),
    s.mode = .idle → seed ≠ 0 → 1 ≤ payload.length → payload.length ≤ 255 →
    (s.cfg = 0 ∨ s.cfg.toNat = payload.length) →
    ∃ rs t ds u ps v,
      runCommands (expand (.encode seed payload)) s = some (rs, t) ∧
      runCommands (expand (.decode (frameBytes rs))) t = some (ds, u) ∧
      u.res = .valid ∧ u.plen.toNat = payload.length ∧
      runCommands (expand (.readpay payload.length)) u = some (ps, v) ∧
      ps = payload.map (emitWord .pay)

/-- R147 (b): a valid frame altered in any nonzero way within one payload byte, or within the checksum byte alone, always
decodes INVALID with reason MISMATCH. -/
def Obligations.SingleByteErrorsAreDetected : Prop :=
  ∀ (s : State) (seed e : Byte) (payload : List Byte) (k : Nat) (h : k < (encodeFrame seed payload).length),
    s.mode = .idle → seed ≠ 0 → e ≠ 0 → 1 ≤ k → 1 ≤ payload.length → payload.length ≤ 255 →
    (s.cfg = 0 ∨ s.cfg.toNat = payload.length) →
    ∃ rs t,
      runCommands (expand (.decode ((encodeFrame seed payload).set k ((encodeFrame seed payload)[k] ^^^ e)))) s
        = some (rs, t) ∧
      t.res = .invalid ∧ t.rsn = .mismatch ∧ t.plen = 0

/-- R147 (d): a frame of at least two bytes with seed 0 is always INVALID, with reason ZERO_SEED, whatever CFG and the other
bytes are. -/
def Obligations.ZeroSeedFramesAreInvalid : Prop :=
  ∀ (s : State) (f : List Byte), s.mode = .idle → 1 ≤ f.length →
    ∃ rs t, runCommands (expand (.decode (0 :: f))) s = some (rs, t) ∧
      t.mode = .idle ∧ t.res = .invalid ∧ t.rsn = .zeroSeed ∧ t.plen = 0

/-! The mapper and the control commands (43_symbol_map.md, 44_control.md) -/

/-- R172: MAP answers its byte with the symbol pair, high nibble then low, and changes no state, in every MODE. -/
def Obligations.MapAnswersTheSymbolPair : Prop :=
  SelectedBy 0x4000 .map ∧
  ∀ (d : Byte) (s : State), ∃ w,
    exec (.map d) s = .next { s with rsp := some w } ∧
    rspTag w = 5 ∧ rspOv w = true ∧ rspSv w = true ∧ rspByte w = d ∧ rspCode w = 0 ∧ rspZero w = 0 ∧
    (rspSymHi w, rspSymLo w) = byteToSymbolPair d ∧
    rspSymHi w = d.extractLsb' 4 4 ∧ rspSymLo w = d.extractLsb' 0 4

/-- R170: the symbol code of a nibble is the nibble, its name the character at that place of the alphabet
`0 1 2 3 4 5 6 7 8 9 a b c d * #`, all sixteen distinct, with aliases e and f of the last two alone. -/
def Obligations.SymbolAlphabet : Prop :=
  (∀ n : BitVec 4, symbolOf n = n) ∧
  (List.range 16).map (fun n => symbolName (BitVec.ofNat 4 n)) =
    ['0', '1', '2', '3', '4', '5', '6', '7', '8', '9', 'a', 'b', 'c', 'd', '*', '#'] ∧
  (∀ a b : SymCode, symbolName a = symbolName b → a = b) ∧
  (∀ c : SymCode, symbolAlias c = if c = 0xE then some 'e' else if c = 0xF then some 'f' else none)

/-- R190: NOP does nothing but answer the empty word, in every MODE. -/
def Obligations.NopOnlyAnswers : Prop :=
  SelectedBy 0x0000 (fun _ => .nop) ∧ ∀ s : State, exec .nop s = .next { s with rsp := some 0 }

/-- R191: CLRERR clears ERRF and ERRC and nothing else, in every MODE. -/
def Obligations.ClrerrClearsTheErrorRegisters : Prop :=
  SelectedBy 0x0100 (fun _ => .clrerr) ∧
  ∀ s : State, exec .clrerr s = .next { s with errf := false, errc := .noError, rsp := some 0 }

/-- R192: ABORT returns to IDLE and clears CNT, ZS and OVF and nothing else, in every MODE. -/
def Obligations.AbortAbandonsTheFrame : Prop :=
  SelectedBy 0x0200 (fun _ => .abort) ∧
  ∀ s : State, exec .abort s = .next { s with mode := .idle, cnt := 0, zs := false, ovf := false, rsp := some 0 }

/-- R193: SRST puts every register of R10 but PBUF at its reset value and answers normally, in every MODE. -/
def Obligations.SrstResetsAllButPbuf : Prop :=
  SelectedBy 0x0300 (fun _ => .srst) ∧
  ∀ s : State, exec .srst s = .next { s with
    sr := 0, ks := 0, ck := 0, mode := .idle, cnt := 0, zs := false, ovf := false, res := .noResult
    rsn := .noReason, plen := 0, cfg := 0, errf := false, errc := .noError, rsp := some 0 }

/-- R194: CFGW in IDLE writes CFG; SEQ in another MODE; at N_MAX = 255 every operand is in range, and for a smaller N_MAX a
greater operand is rejected with RANGE. -/
def Obligations.CfgwWritesTheExpectedLength : Prop :=
  SelectedBy 0x5000 .cfgw ∧
  (∀ (d : Byte) (s : State), s.mode = .idle → exec (.cfgw d) s = .next { s with cfg := d, rsp := some 0 }) ∧
  (∀ (d : Byte) (s : State), s.mode ≠ .idle → exec (.cfgw d) s = .next (s.rejected .seq)) ∧
  (∀ (n d : Byte) (s : State), s.mode ≠ .idle → cfgwAt n d s = .next (s.rejected .seq)) ∧
  (∀ (n d : Byte) (s : State), s.mode = .idle → d ≤ n → cfgwAt n d s = .next { s with cfg := d, rsp := some 0 }) ∧
  (∀ (n d : Byte) (s : State), s.mode = .idle → n < d → cfgwAt n d s = .next (s.rejected .range))

/-- R195: RDREG emits the register that the map gives its index, with no other effect and in every MODE; RANGE for the indices
0x0A to 0xFF. -/
def Obligations.RdregReadsTheRegisterMap : Prop :=
  SelectedBy 0x6000 .rdreg ∧
  (∀ s : State,
    exec (.rdreg 0x00) s = .next { s with
      rsp := some (emitWord .reg (BitVec.ofBool s.errf ++ s.rsn.code ++ s.res.code ++ s.mode.code)) } ∧
    exec (.rdreg 0x01) s = .next { s with rsp := some (emitWord .reg (0#4 ++ s.errc.code)) } ∧
    exec (.rdreg 0x02) s = .next { s with rsp := some (emitWord .reg s.sr) } ∧
    exec (.rdreg 0x03) s = .next { s with rsp := some (emitWord .reg s.ks) } ∧
    exec (.rdreg 0x04) s = .next { s with rsp := some (emitWord .reg s.ck) } ∧
    exec (.rdreg 0x05) s = .next { s with rsp := some (emitWord .reg s.cnt) } ∧
    exec (.rdreg 0x06) s = .next { s with rsp := some (emitWord .reg s.plen) } ∧
    exec (.rdreg 0x07) s = .next { s with rsp := some (emitWord .reg s.cfg) } ∧
    exec (.rdreg 0x08) s = .next { s with
      rsp := some (emitWord .reg (0#6 ++ BitVec.ofBool s.ovf ++ BitVec.ofBool s.zs)) } ∧
    exec (.rdreg 0x09) s = .next { s with rsp := some (emitWord .reg 0xFF) }) ∧
  (∀ (d : Byte) (s : State), 0x0A ≤ d → exec (.rdreg d) s = .next (s.rejected .range))

/-- R46: RDREG and RDPAY are idempotent: repeating one with no other command between gives the same response and state. -/
def Obligations.ReadsAreIdempotent : Prop :=
  ∀ d : Byte, ∀ i ∈ [Instr.rdreg d, Instr.rdpay d], ∀ s t : State, exec i s = .next t → exec i t = .next t

/-! Whole-machine rules (10_state.md) -/

/-- R16: MODE has the codes 0, 1, 2, never 3, and resets to IDLE. ENCS moves IDLE to ENC, ENCE moves ENC to IDLE, DECS moves
IDLE to DEC and DECE moves DEC to IDLE, each where its own rule does not reject it; ABORT and SRST set IDLE from any mode; and
MODE changes in no other way. -/
def Obligations.ModeTransitions : Prop :=
  [Mode.idle, .enc, .dec].map Mode.code = [0, 1, 2] ∧ (∀ m : Mode, m.code ≠ 3) ∧ State.reset.mode = .idle ∧
  (∀ (d : Byte) (s : State), s.mode = .idle → d ≠ 0 → ∃ t, exec (.encs d) s = .next t ∧ t.mode = .enc) ∧
  (∀ s : State, s.mode = .enc → s.cnt ≠ 0 → (s.cfg = 0 ∨ s.cnt = s.cfg) →
    ∃ t, exec .ence s = .next t ∧ t.mode = .idle) ∧
  (∀ (d : Byte) (s : State), s.mode = .idle → ∃ t, exec (.decs d) s = .next t ∧ t.mode = .dec) ∧
  (∀ (d : Byte) (s : State), s.mode = .dec → ∃ t, exec (.dece d) s = .next t ∧ t.mode = .idle) ∧
  (∀ i ∈ [Instr.abort, .srst], ∀ s : State, ∃ t, exec i s = .next t ∧ t.mode = .idle) ∧
  ∀ (i : Instr) (s t : State), exec i s = .next t → t.mode ≠ s.mode →
    (i.mnemonic = "ENCS" ∧ s.mode = .idle ∧ t.mode = .enc) ∨ (i = .ence ∧ s.mode = .enc ∧ t.mode = .idle) ∨
    (i.mnemonic = "DECS" ∧ s.mode = .idle ∧ t.mode = .dec) ∨ (i.mnemonic = "DECE" ∧ s.mode = .dec ∧ t.mode = .idle) ∨
    ((i = .abort ∨ i = .srst) ∧ t.mode = .idle)

/-- R13 to R15, R17 to R20, R22, R23, R26: each register is written only by the commands its rule lists, PBUF by DECB alone, and
no command touches the host's coming inputs or the model's counters. -/
def Obligations.RegistersKeepTheirWriters : Prop :=
  ∀ (i : Instr) (s t : State), exec i s = .next t →
    (i.mnemonic ∉ ["SSET", "SSTEP", "SCHK", "SRST"] → t.sr = s.sr) ∧
    (i.mnemonic ∉ ["ENCS", "DECS", "ENCB", "DECB", "SRST"] → t.ks = s.ks ∧ t.ck = s.ck) ∧
    (i.mnemonic ∉ ["ENCS", "DECS", "DEC1", "ABORT", "SRST", "ENCB", "DECB"] → t.cnt = s.cnt) ∧
    (i.mnemonic ∉ ["DECS", "ENCS", "DEC1", "ABORT", "SRST"] → t.zs = s.zs) ∧
    (i.mnemonic ∉ ["DECB", "ENCS", "DECS", "DEC1", "ABORT", "SRST"] → t.ovf = s.ovf) ∧
    (i.mnemonic ∉ ["DECS", "DECE", "DEC1", "SRST"] → t.res = s.res ∧ t.rsn = s.rsn ∧ t.plen = s.plen) ∧
    (i.mnemonic ∉ ["CFGW", "SRST"] → t.cfg = s.cfg) ∧
    (i.mnemonic ≠ "DECB" → t.pbuf = s.pbuf) ∧
    t.inputs = s.inputs ∧ t.edges = s.edges ∧ t.pbufEpoch = s.pbufEpoch

/-- R26, R29 (a): what PBUF held before a decode is never observable: from a state with no valid result and no decode in progress,
every command sequence gives the same responses whatever PBUF held. -/
def Obligations.OldPayloadBufferIsUnobservable : Prop :=
  ∀ (cmds : List Instr) (s : State) (m : Memory) (epoch : Nat), s.res ≠ .valid → s.mode ≠ .dec →
    ∃ rs t t', runCommands cmds s = some (rs, t) ∧
      runCommands cmds { s with pbuf := m, pbufEpoch := epoch } = some (rs, t')

/-- The reset state satisfies the invariants. -/
def Obligations.ResetIsCoherent : Prop :=
  Coherent State.reset ∧ DecodeInProgress State.reset ∧ Memory.wf State.reset.pbuf = true

/-- R17, R20 to R26: every rising edge, whatever the host drives, keeps the invariants of the registers and of PBUF. -/
def Obligations.EveryEdgeKeepsCoherence : Prop :=
  ∀ s t : State, Coherent s → step s = .next t → Coherent t

/-- R140, R141: every rising edge keeps the decoder's content: in mid-frame PBUF[0..CNT-1] is a payload whose checksum from the
seed is CK and whose keystream state is KS. -/
def Obligations.EveryEdgeKeepsDecodeContent : Prop :=
  ∀ s t : State, DecodeInProgress s → step s = .next t → DecodeInProgress t

/-- R7: for every N_MAX from 1 to 255 the commands that read it complete in every coherent state and keep it coherent, and they
reject or flag exactly at N_MAX. -/
def Obligations.EveryCapacityKeepsCoherence : Prop :=
  ∀ (n d : Byte) (s : State), n ≠ 0 → CoherentAt n s →
    (∃ t, encbAt n d s = .next t ∧ CoherentAt n t ∧
      (s.mode = .enc → s.cnt = n → t = s.rejected .overflow)) ∧
    (∃ t, decbAt n d s = .next t ∧ CoherentAt n t ∧
      (s.mode = .dec → s.cnt = n → t = { s with ovf := true, rsp := some 0 })) ∧
    (∃ t, cfgwAt n d s = .next t ∧ CoherentAt n t ∧ (s.mode = .idle → n < d → t = s.rejected .range)) ∧
    (∃ t, rdregAt n d s = .next t ∧ CoherentAt n t ∧
      (d = 0x09 → t = { s with rsp := some (emitWord .reg n) })) ∧
    (∃ t, rdpayAt n d s = .next t ∧ CoherentAt n t)

/-! The step: one rising edge of clk (10_state.md R30 to R33) -/

/-- R31: at an edge with rst = 0, cmd_valid = 1 and cmd_ready = 1, a word that decodes is carried out: the step is `exec` of the
decoded command on the state with this edge's sample used up and the edge counted (the model's own bookkeeping, log entries 1
and 6); its response is loaded. -/
def Obligations.StepRunsTheDecodedCommand : Prop :=
  ∀ (s : State) (p : Pins) (rest : List Pins) (i : Instr), s.inputs = p :: rest → decode p.cmdData = .ok i →
    p.rst = false → p.cmdValid = true → (s.rsp = none ∨ p.rspReady = true) →
    step s = exec i { s with inputs := rest, edges := s.edges + 1 } ∧
    ∃ t w, step s = .next t ∧ t.rsp = some w

/-- R31, R32: an edge that accepts no command holds an untaken response, drops a taken one and changes nothing else of the block;
cmd_ready is `!rst && (!rsp_valid || rsp_ready)`, and rsp_valid and rsp_data show the response register. That the step uses up
its sample (`inputs := rest`) and counts the edge is the model's choice (log entries 1 and 6), and so is the quiet edge: with no
sample left nothing is driven and everything but the edge count is held (log entries 1 and 6). -/
def Obligations.EdgesWithoutACommandHoldTheState : Prop :=
  (∀ (s : State) (p : Pins) (rest : List Pins) (w : RspWord), s.inputs = p :: rest → p.rst = false →
    s.rsp = some w → p.rspReady = false →
    step s = .next { s with inputs := rest, edges := s.edges + 1 }) ∧
  (∀ (s : State) (p : Pins) (rest : List Pins), s.inputs = p :: rest → p.rst = false → p.cmdValid = false →
    step s = .next { s with
      inputs := rest, edges := s.edges + 1, rsp := if p.rspReady then none else s.rsp }) ∧
  (∀ s : State, s.inputs = [] → step s = .next { s with edges := s.edges + 1 }) ∧
  (∀ (s : State) (p : Pins),
    (outputs p s).cmdReady = (!p.rst && (!(outputs p s).rspValid || p.rspReady)) ∧
    ((outputs p s).rspValid = true ↔ s.rsp ≠ none) ∧ (∀ w, s.rsp = some w → (outputs p s).rspData = w))

/-- R33, R214, R240: at an edge with rst = 1 every element takes its reset value, the response is discarded and no command is
accepted, whatever the command port shows; cmd_ready is 0. That the edge uses up its own sample and leaves the coming ones
(`t.inputs = rest`) is the model's choice (log entry 1): R33 names no such state. -/
def Obligations.ResetEdgeTakesEveryResetValue : Prop :=
  ∀ (s : State) (p : Pins) (rest : List Pins), s.inputs = p :: rest → p.rst = true →
    (outputs p s).cmdReady = false ∧
    ∃ t, step s = .next t ∧
      t.sr = 0x00 ∧ t.ks = 0x00 ∧ t.ck = 0x00 ∧ t.mode = .idle ∧ t.cnt = 0x00 ∧ t.zs = false ∧ t.ovf = false ∧
      t.res = .noResult ∧ t.rsn = .noReason ∧ t.plen = 0x00 ∧ t.cfg = 0x00 ∧ t.errf = false ∧ t.errc = .noError ∧
      t.rsp = none ∧ t.inputs = rest

/-- 60_exceptions.md R211, R215, R222: the block never stops: every edge, in every state and whatever the host drives, gives a
next state. -/
def Obligations.TheBlockNeverStops : Prop :=
  ∀ s : State, ∃ t, step s = .next t

/-- R31, R32, R49: a host that presents commands back to back and takes every response gets one response per command, in order,
one edge each: the edges realise the command sequence. That the samples are used up (`inputs := []`) and the edges counted is
the model's choice (log entries 1 and 6). -/
def Obligations.EdgesRealiseTheCommandSequence : Prop :=
  ∀ (cmds : List Instr) (s : State), s.rsp = none →
    ∃ rs t,
      runCommands cmds s = some (rs, t) ∧ rs.length = cmds.length ∧
      runEdges (cmds.length + 1)
        { s with inputs := cmds.map (fun i => Pins.command (encode i)) ++ [Pins.collect] }
        = .next { t with inputs := [], edges := s.edges + (cmds.length + 1), rsp := none } ∧
      deliveries (cmds.length + 1)
        { s with inputs := cmds.map (fun i => Pins.command (encode i)) ++ [Pins.collect] } = rs

/-! The assembler (30_encoding.md R80, R81) -/

/-- R80: a well-formed line assembles to `match | D`, a word that decodes to a command of its mnemonic, and every command is
some line's word; an ill-formed line does not assemble. -/
def Obligations.LinesAssembleToTheirCommands : Prop :=
  (∀ l : Line, l.wellFormed = true → ∃ w i,
    assembleLine l = some w ∧ decode w = .ok i ∧ i.mnemonic = l.mnemonic ∧
    w = i.matchBits ||| BitVec.ofNat 16 (l.operand.getD 0) ∧ encode i = w) ∧
  (∀ i : Instr, ∃ l : Line, l.wellFormed = true ∧ assembleLine l = some (encode i)) ∧
  (∀ l : Line, l.wellFormed = false → assembleLine l = none)

/-- R81, R105: CHECKSUM leaves the checksum of its bytes in SR, from any seed and also for no byte; KEYSTREAM's n responses carry
the first n keystream bytes; SYMBOLS emits the symbols of its bytes, high nibble first. -/
def Obligations.ScramblerMacrosCompute : Prop :=
  ∀ (s : State) (seed : Byte) (bytes : List Byte) (n : Nat),
    (∃ rs t, runCommands (expand (.checksum seed bytes)) s = some (rs, t) ∧ t.sr = checksum seed bytes ∧
      (bytes ≠ [] → rs.getLast?.map rspByte = some (checksum seed bytes))) ∧
    (∃ rs t, runCommands (expand (.keystream seed n)) s = some (rs, t) ∧
      rs.tail.map rspByte = keystream seed n ∧ t.sr = Nat.iterate ksNext n seed) ∧
    (∃ rs t, runCommands (expand (.symbols bytes)) s = some (rs, t) ∧
      symbolStream rs = symbolsOf bytes ∧ t = { s with rsp := t.rsp })
end

