-- ==== Sys2Proof/Laws/Memory.lean ====
section
/-! SUPPORT. PBUF as a canonical list: reads after writes, and every operation keeps the form. -/

namespace Sys2Proof.Machine

@[simp] theorem readByte_nil (a : Nat) : readByte [] a = none := rfl

/-- A read after a write to the same index gives the value written. -/
@[simp] theorem readByte_writeByte_same (m : Memory) (a : Nat) (v : Byte) :
    readByte (writeByte m a v) a = some v := by
  induction m with
  | nil => simp [writeByte, readByte]
  | cons c rest ih =>
    obtain ⟨b, u⟩ := c
    unfold writeByte
    split
    · simp [readByte]
    · split
      · simp [readByte]
      · simp [readByte, *]

/-- A write leaves every other index alone. -/
theorem readByte_writeByte_other (m : Memory) {a x : Nat} (v : Byte) (h : x ≠ a) :
    readByte (writeByte m a v) x = readByte m x := by
  induction m with
  | nil => simp [writeByte, readByte, h]
  | cons c rest ih =>
    obtain ⟨b, u⟩ := c
    unfold writeByte
    split
    · simp [readByte, h]
    · split
      · rename_i h'; subst h'; simp [readByte, h]
      · simp [readByte, ih]

/-- Both read laws at once. -/
theorem readByte_writeByte (m : Memory) (a x : Nat) (v : Byte) :
    readByte (writeByte m a v) x = if x = a then some v else readByte m x := by
  split
  · rename_i h; subst h; simp
  · rename_i h; exact readByte_writeByte_other m v h

/-- A weaker lower bound still holds. -/
theorem risingWithin_mono {lo lo' hi : Nat} {m : Memory} (h : lo' ≤ lo) (hm : risingWithin lo hi m = true) :
    risingWithin lo' hi m = true := by
  cases m with
  | nil => rfl
  | cons c rest =>
    obtain ⟨b, u⟩ := c
    simp only [risingWithin, Bool.and_eq_true, decide_eq_true_eq] at hm ⊢
    exact ⟨⟨by omega, hm.1.2⟩, hm.2⟩

/-- A write inside the bounds keeps the indices strictly rising. -/
theorem risingWithin_writeByte {lo hi a : Nat} {m : Memory} (v : Byte) (hm : risingWithin lo hi m = true)
    (h1 : lo ≤ a) (h2 : a < hi) : risingWithin lo hi (writeByte m a v) = true := by
  induction m generalizing lo with
  | nil => simp [writeByte, risingWithin, h1, h2]
  | cons c rest ih =>
    obtain ⟨b, u⟩ := c
    simp only [risingWithin, Bool.and_eq_true, decide_eq_true_eq] at hm
    unfold writeByte
    split
    · rename_i hab
      simp only [risingWithin, Bool.and_eq_true, decide_eq_true_eq]
      exact ⟨⟨h1, h2⟩, ⟨by omega, hm.1.2⟩, hm.2⟩
    · split
      · rename_i hab; subst hab
        simp only [risingWithin, Bool.and_eq_true, decide_eq_true_eq]
        exact ⟨⟨h1, h2⟩, hm.2⟩
      · simp only [risingWithin, Bool.and_eq_true, decide_eq_true_eq]
        exact ⟨hm.1, ih hm.2 (by omega)⟩

/-- A write to an index of the buffer keeps the canonical form. -/
theorem Memory.wfAt_writeByte {n a : Nat} {m : Memory} (v : Byte) (hm : Memory.wfAt n m = true) (h : a < n) :
    Memory.wfAt n (writeByte m a v) = true :=
  risingWithin_writeByte v hm (Nat.zero_le a) h

/-- Nothing is listed below the lower bound. -/
theorem readByte_below {lo hi a : Nat} {m : Memory} (hm : risingWithin lo hi m = true) (h : a < lo) :
    readByte m a = none := by
  induction m generalizing lo with
  | nil => rfl
  | cons c rest ih =>
    obtain ⟨b, u⟩ := c
    simp only [risingWithin, Bool.and_eq_true, decide_eq_true_eq] at hm
    have hne : a ≠ b := by omega
    simp [readByte, hne, ih hm.2 (by omega)]

/-- Nothing is listed outside the buffer. -/
theorem readByte_outside {lo hi a : Nat} {m : Memory} (hm : risingWithin lo hi m = true) (h : hi ≤ a) :
    readByte m a = none := by
  induction m generalizing lo with
  | nil => rfl
  | cons c rest ih =>
    obtain ⟨b, u⟩ := c
    simp only [risingWithin, Bool.and_eq_true, decide_eq_true_eq] at hm
    have hne : a ≠ b := by omega
    simp [readByte, hne, ih hm.2]

/-- Two canonical buffers that read alike are the same data. -/
theorem Memory.ext_of_wf {lo hi : Nat} {m m' : Memory} (hm : risingWithin lo hi m = true)
    (hm' : risingWithin lo hi m' = true) (h : ∀ a, readByte m a = readByte m' a) : m = m' := by
  induction m generalizing m' lo with
  | nil =>
    cases m' with
    | nil => rfl
    | cons c rest => obtain ⟨b, u⟩ := c; simpa [readByte] using h b
  | cons c rest ih =>
    obtain ⟨b, u⟩ := c
    cases m' with
    | nil => simpa [readByte] using h b
    | cons c' rest' =>
      obtain ⟨b', u'⟩ := c'
      simp only [risingWithin, Bool.and_eq_true, decide_eq_true_eq] at hm hm'
      have hbb : b = b' := by
        rcases Nat.lt_trichotomy b b' with hlt | heq | hgt
        · have := h b
          simp [readByte, Nat.ne_of_lt hlt, readByte_below hm'.2 (show b < b' + 1 by omega)] at this
        · exact heq
        · have := h b'
          simp [readByte, Nat.ne_of_lt hgt, readByte_below hm.2 (show b' < b + 1 by omega)] at this
      subst hbb
      have huu : u = u' := by simpa [readByte] using h b
      subst huu
      have hrest : ∀ a, readByte rest a = readByte rest' a := by
        intro a
        by_cases hab : a = b
        · subst hab
          rw [readByte_below hm.2 (Nat.lt_succ_self a), readByte_below hm'.2 (Nat.lt_succ_self a)]
        · simpa [readByte, hab] using h a
      rw [ih hm.2 hm'.2 hrest]

end Sys2Proof.Machine
end

