-- ==== Sys2Proof/Laws/Response.lean ====
section
/-! SUPPORT. The fields of a response word read back as they were put in (spec 30_encoding.md R70). -/

namespace Sys2Proof.Machine

section
variable (sv : Bool) (lo hi : SymCode) (b : Byte) (t : BitVec 3) (ov : Bool) (c : BitVec 4)

@[simp] theorem rspCode_responseWord : rspCode (responseWord sv lo hi b t ov c) = c := by
  unfold rspCode responseWord
  rw [BitVec.extractLsb'_append_eq_of_add_le (by decide)]
  simp

@[simp] theorem rspTag_responseWord : rspTag (responseWord sv lo hi b t ov c) = t := by
  unfold rspTag responseWord
  rw [BitVec.extractLsb'_append_eq_of_le (by decide),
    BitVec.extractLsb'_append_eq_of_le (by decide),
    BitVec.extractLsb'_append_eq_of_add_le (by decide)]
  simp

@[simp] theorem rspByte_responseWord : rspByte (responseWord sv lo hi b t ov c) = b := by
  unfold rspByte responseWord
  rw [BitVec.extractLsb'_append_eq_of_le (by decide),
    BitVec.extractLsb'_append_eq_of_le (by decide),
    BitVec.extractLsb'_append_eq_of_le (by decide),
    BitVec.extractLsb'_append_eq_of_add_le (by decide)]
  simp

@[simp] theorem rspSymHi_responseWord : rspSymHi (responseWord sv lo hi b t ov c) = hi := by
  unfold rspSymHi responseWord
  rw [BitVec.extractLsb'_append_eq_of_le (by decide),
    BitVec.extractLsb'_append_eq_of_le (by decide),
    BitVec.extractLsb'_append_eq_of_le (by decide),
    BitVec.extractLsb'_append_eq_of_le (by decide),
    BitVec.extractLsb'_append_eq_of_add_le (by decide)]
  simp

@[simp] theorem rspSymLo_responseWord : rspSymLo (responseWord sv lo hi b t ov c) = lo := by
  unfold rspSymLo responseWord
  rw [BitVec.extractLsb'_append_eq_of_le (by decide),
    BitVec.extractLsb'_append_eq_of_le (by decide),
    BitVec.extractLsb'_append_eq_of_le (by decide),
    BitVec.extractLsb'_append_eq_of_le (by decide),
    BitVec.extractLsb'_append_eq_of_le (by decide),
    BitVec.extractLsb'_append_eq_of_add_le (by decide)]
  simp

@[simp] theorem rspOv_responseWord : rspOv (responseWord sv lo hi b t ov c) = ov := by
  unfold rspOv responseWord
  rw [BitVec.getLsbD_append, BitVec.getLsbD_append]
  simp

@[simp] theorem rspSv_responseWord : rspSv (responseWord sv lo hi b t ov c) = sv := by
  unfold rspSv responseWord
  rw [BitVec.getLsbD_append, BitVec.getLsbD_append, BitVec.getLsbD_append, BitVec.getLsbD_append, BitVec.getLsbD_append, BitVec.getLsbD_append, BitVec.getLsbD_append]
  simp

@[simp] theorem rspZero_responseWord : rspZero (responseWord sv lo hi b t ov c) = 0 := by
  unfold rspZero responseWord
  rw [BitVec.extractLsb'_append_eq_of_le (by decide),
    BitVec.extractLsb'_append_eq_of_le (by decide),
    BitVec.extractLsb'_append_eq_of_le (by decide),
    BitVec.extractLsb'_append_eq_of_le (by decide),
    BitVec.extractLsb'_append_eq_of_le (by decide),
    BitVec.extractLsb'_append_eq_of_le (by decide),
    BitVec.extractLsb'_append_eq_of_le (by decide)]
  simp

end

/-- The word of `emit`, as one `responseWord` with the symbol fields of R72. -/
theorem emitWord_eq (t : Tag) (b : Byte) :
    emitWord t b = responseWord t.carriesSymbols (if t.carriesSymbols then lowNibble b else 0)
      (if t.carriesSymbols then highNibble b else 0) b t.code true 0 := by
  cases t <;> rfl

@[simp] theorem rspCode_emitWord (t : Tag) (b : Byte) : rspCode (emitWord t b) = 0 := by
  simp [emitWord_eq]

@[simp] theorem rspOv_emitWord (t : Tag) (b : Byte) : rspOv (emitWord t b) = true := by
  simp [emitWord_eq]

@[simp] theorem rspTag_emitWord (t : Tag) (b : Byte) : rspTag (emitWord t b) = t.code := by
  simp [emitWord_eq]

@[simp] theorem rspByte_emitWord (t : Tag) (b : Byte) : rspByte (emitWord t b) = b := by
  simp [emitWord_eq]

@[simp] theorem rspSv_emitWord (t : Tag) (b : Byte) : rspSv (emitWord t b) = t.carriesSymbols := by
  simp [emitWord_eq]

@[simp] theorem rspZero_emitWord (t : Tag) (b : Byte) : rspZero (emitWord t b) = 0 := by
  simp [emitWord_eq]

@[simp] theorem rspSymHi_emitWord (t : Tag) (b : Byte) :
    rspSymHi (emitWord t b) = if t.carriesSymbols then highNibble b else 0 := by
  simp [emitWord_eq]

@[simp] theorem rspSymLo_emitWord (t : Tag) (b : Byte) :
    rspSymLo (emitWord t b) = if t.carriesSymbols then lowNibble b else 0 := by
  simp [emitWord_eq]

@[simp] theorem rspCode_emptyWord : rspCode emptyWord = 0 := rfl

@[simp] theorem rspOv_emptyWord : rspOv emptyWord = false := rfl

@[simp] theorem rspSv_emptyWord : rspSv emptyWord = false := rfl

@[simp] theorem rspCode_errorWord (e : ErrCode) : rspCode (errorWord e) = e.code := by
  cases e <;> decide

@[simp] theorem rspOv_errorWord (e : ErrCode) : rspOv (errorWord e) = false := by
  cases e <;> decide

@[simp] theorem rspSv_errorWord (e : ErrCode) : rspSv (errorWord e) = false := by
  cases e <;> decide

/-- An error's code is 0 only for NONE. -/
theorem ErrCode.code_eq_zero {e : ErrCode} : e.code = 0 ↔ e = .noError := by
  cases e <;> decide

/-- Different errors have different codes. -/
theorem ErrCode.code_injective {e e' : ErrCode} (h : e.code = e'.code) : e = e' := by
  cases e <;> cases e' <;> first | rfl | exact absurd h (by decide)

end Sys2Proof.Machine
end

