-- ==== Sys2Proof/Laws/State.lean ====
section
/-! SUPPORT. One lemma per field per update of State, so that no proof unfolds a record update. -/

namespace Sys2Proof.Machine

/-! `State.respond` -/

@[simp] theorem State.respond_sr (s : State) (w : RspWord) : (s.respond w).sr = s.sr := rfl
@[simp] theorem State.respond_ks (s : State) (w : RspWord) : (s.respond w).ks = s.ks := rfl
@[simp] theorem State.respond_ck (s : State) (w : RspWord) : (s.respond w).ck = s.ck := rfl
@[simp] theorem State.respond_mode (s : State) (w : RspWord) : (s.respond w).mode = s.mode := rfl
@[simp] theorem State.respond_cnt (s : State) (w : RspWord) : (s.respond w).cnt = s.cnt := rfl
@[simp] theorem State.respond_zs (s : State) (w : RspWord) : (s.respond w).zs = s.zs := rfl
@[simp] theorem State.respond_ovf (s : State) (w : RspWord) : (s.respond w).ovf = s.ovf := rfl
@[simp] theorem State.respond_res (s : State) (w : RspWord) : (s.respond w).res = s.res := rfl
@[simp] theorem State.respond_rsn (s : State) (w : RspWord) : (s.respond w).rsn = s.rsn := rfl
@[simp] theorem State.respond_plen (s : State) (w : RspWord) : (s.respond w).plen = s.plen := rfl
@[simp] theorem State.respond_cfg (s : State) (w : RspWord) : (s.respond w).cfg = s.cfg := rfl
@[simp] theorem State.respond_errf (s : State) (w : RspWord) : (s.respond w).errf = s.errf := rfl
@[simp] theorem State.respond_errc (s : State) (w : RspWord) : (s.respond w).errc = s.errc := rfl
@[simp] theorem State.respond_pbuf (s : State) (w : RspWord) : (s.respond w).pbuf = s.pbuf := rfl
@[simp] theorem State.respond_rsp (s : State) (w : RspWord) : (s.respond w).rsp = some w := rfl
@[simp] theorem State.respond_inputs (s : State) (w : RspWord) : (s.respond w).inputs = s.inputs := rfl
@[simp] theorem State.respond_edges (s : State) (w : RspWord) : (s.respond w).edges = s.edges := rfl
@[simp] theorem State.respond_pbufEpoch (s : State) (w : RspWord) : (s.respond w).pbufEpoch = s.pbufEpoch := rfl

/-! `State.rejected` -/

@[simp] theorem State.rejected_sr (s : State) (e : ErrCode) : (s.rejected e).sr = s.sr := rfl
@[simp] theorem State.rejected_ks (s : State) (e : ErrCode) : (s.rejected e).ks = s.ks := rfl
@[simp] theorem State.rejected_ck (s : State) (e : ErrCode) : (s.rejected e).ck = s.ck := rfl
@[simp] theorem State.rejected_mode (s : State) (e : ErrCode) : (s.rejected e).mode = s.mode := rfl
@[simp] theorem State.rejected_cnt (s : State) (e : ErrCode) : (s.rejected e).cnt = s.cnt := rfl
@[simp] theorem State.rejected_zs (s : State) (e : ErrCode) : (s.rejected e).zs = s.zs := rfl
@[simp] theorem State.rejected_ovf (s : State) (e : ErrCode) : (s.rejected e).ovf = s.ovf := rfl
@[simp] theorem State.rejected_res (s : State) (e : ErrCode) : (s.rejected e).res = s.res := rfl
@[simp] theorem State.rejected_rsn (s : State) (e : ErrCode) : (s.rejected e).rsn = s.rsn := rfl
@[simp] theorem State.rejected_plen (s : State) (e : ErrCode) : (s.rejected e).plen = s.plen := rfl
@[simp] theorem State.rejected_cfg (s : State) (e : ErrCode) : (s.rejected e).cfg = s.cfg := rfl
@[simp] theorem State.rejected_errf (s : State) (e : ErrCode) : (s.rejected e).errf = true := rfl
@[simp] theorem State.rejected_errc (s : State) (e : ErrCode) : (s.rejected e).errc = e := rfl
@[simp] theorem State.rejected_pbuf (s : State) (e : ErrCode) : (s.rejected e).pbuf = s.pbuf := rfl
@[simp] theorem State.rejected_rsp (s : State) (e : ErrCode) : (s.rejected e).rsp = some (errorWord e) := rfl
@[simp] theorem State.rejected_inputs (s : State) (e : ErrCode) : (s.rejected e).inputs = s.inputs := rfl
@[simp] theorem State.rejected_edges (s : State) (e : ErrCode) : (s.rejected e).edges = s.edges := rfl
@[simp] theorem State.rejected_pbufEpoch (s : State) (e : ErrCode) : (s.rejected e).pbufEpoch = s.pbufEpoch := rfl

/-! `State.clearErrors` -/

@[simp] theorem State.clearErrors_sr (s : State) : s.clearErrors.sr = s.sr := rfl
@[simp] theorem State.clearErrors_ks (s : State) : s.clearErrors.ks = s.ks := rfl
@[simp] theorem State.clearErrors_ck (s : State) : s.clearErrors.ck = s.ck := rfl
@[simp] theorem State.clearErrors_mode (s : State) : s.clearErrors.mode = s.mode := rfl
@[simp] theorem State.clearErrors_cnt (s : State) : s.clearErrors.cnt = s.cnt := rfl
@[simp] theorem State.clearErrors_zs (s : State) : s.clearErrors.zs = s.zs := rfl
@[simp] theorem State.clearErrors_ovf (s : State) : s.clearErrors.ovf = s.ovf := rfl
@[simp] theorem State.clearErrors_res (s : State) : s.clearErrors.res = s.res := rfl
@[simp] theorem State.clearErrors_rsn (s : State) : s.clearErrors.rsn = s.rsn := rfl
@[simp] theorem State.clearErrors_plen (s : State) : s.clearErrors.plen = s.plen := rfl
@[simp] theorem State.clearErrors_cfg (s : State) : s.clearErrors.cfg = s.cfg := rfl
@[simp] theorem State.clearErrors_errf (s : State) : s.clearErrors.errf = false := rfl
@[simp] theorem State.clearErrors_errc (s : State) : s.clearErrors.errc = .noError := rfl
@[simp] theorem State.clearErrors_pbuf (s : State) : s.clearErrors.pbuf = s.pbuf := rfl
@[simp] theorem State.clearErrors_rsp (s : State) : s.clearErrors.rsp = s.rsp := rfl
@[simp] theorem State.clearErrors_inputs (s : State) : s.clearErrors.inputs = s.inputs := rfl
@[simp] theorem State.clearErrors_edges (s : State) : s.clearErrors.edges = s.edges := rfl
@[simp] theorem State.clearErrors_pbufEpoch (s : State) : s.clearErrors.pbufEpoch = s.pbufEpoch := rfl

/-! `State.resetRegisters` -/

@[simp] theorem State.resetRegisters_sr (s : State) : s.resetRegisters.sr = 0 := rfl
@[simp] theorem State.resetRegisters_ks (s : State) : s.resetRegisters.ks = 0 := rfl
@[simp] theorem State.resetRegisters_ck (s : State) : s.resetRegisters.ck = 0 := rfl
@[simp] theorem State.resetRegisters_mode (s : State) : s.resetRegisters.mode = .idle := rfl
@[simp] theorem State.resetRegisters_cnt (s : State) : s.resetRegisters.cnt = 0 := rfl
@[simp] theorem State.resetRegisters_zs (s : State) : s.resetRegisters.zs = false := rfl
@[simp] theorem State.resetRegisters_ovf (s : State) : s.resetRegisters.ovf = false := rfl
@[simp] theorem State.resetRegisters_res (s : State) : s.resetRegisters.res = .noResult := rfl
@[simp] theorem State.resetRegisters_rsn (s : State) : s.resetRegisters.rsn = .noReason := rfl
@[simp] theorem State.resetRegisters_plen (s : State) : s.resetRegisters.plen = 0 := rfl
@[simp] theorem State.resetRegisters_cfg (s : State) : s.resetRegisters.cfg = 0 := rfl
@[simp] theorem State.resetRegisters_errf (s : State) : s.resetRegisters.errf = false := rfl
@[simp] theorem State.resetRegisters_errc (s : State) : s.resetRegisters.errc = .noError := rfl
@[simp] theorem State.resetRegisters_pbuf (s : State) : s.resetRegisters.pbuf = s.pbuf := rfl
@[simp] theorem State.resetRegisters_rsp (s : State) : s.resetRegisters.rsp = s.rsp := rfl
@[simp] theorem State.resetRegisters_inputs (s : State) : s.resetRegisters.inputs = s.inputs := rfl
@[simp] theorem State.resetRegisters_edges (s : State) : s.resetRegisters.edges = s.edges := rfl
@[simp] theorem State.resetRegisters_pbufEpoch (s : State) : s.resetRegisters.pbufEpoch = s.pbufEpoch := rfl

/-! `State.loadSeed` -/

@[simp] theorem State.loadSeed_sr (s : State) (d : Byte) : (s.loadSeed d).sr = s.sr := rfl
@[simp] theorem State.loadSeed_ks (s : State) (d : Byte) : (s.loadSeed d).ks = d := rfl
@[simp] theorem State.loadSeed_ck (s : State) (d : Byte) : (s.loadSeed d).ck = d := rfl
@[simp] theorem State.loadSeed_mode (s : State) (d : Byte) : (s.loadSeed d).mode = s.mode := rfl
@[simp] theorem State.loadSeed_cnt (s : State) (d : Byte) : (s.loadSeed d).cnt = 0 := rfl
@[simp] theorem State.loadSeed_zs (s : State) (d : Byte) : (s.loadSeed d).zs = s.zs := rfl
@[simp] theorem State.loadSeed_ovf (s : State) (d : Byte) : (s.loadSeed d).ovf = s.ovf := rfl
@[simp] theorem State.loadSeed_res (s : State) (d : Byte) : (s.loadSeed d).res = s.res := rfl
@[simp] theorem State.loadSeed_rsn (s : State) (d : Byte) : (s.loadSeed d).rsn = s.rsn := rfl
@[simp] theorem State.loadSeed_plen (s : State) (d : Byte) : (s.loadSeed d).plen = s.plen := rfl
@[simp] theorem State.loadSeed_cfg (s : State) (d : Byte) : (s.loadSeed d).cfg = s.cfg := rfl
@[simp] theorem State.loadSeed_errf (s : State) (d : Byte) : (s.loadSeed d).errf = s.errf := rfl
@[simp] theorem State.loadSeed_errc (s : State) (d : Byte) : (s.loadSeed d).errc = s.errc := rfl
@[simp] theorem State.loadSeed_pbuf (s : State) (d : Byte) : (s.loadSeed d).pbuf = s.pbuf := rfl
@[simp] theorem State.loadSeed_rsp (s : State) (d : Byte) : (s.loadSeed d).rsp = s.rsp := rfl
@[simp] theorem State.loadSeed_inputs (s : State) (d : Byte) : (s.loadSeed d).inputs = s.inputs := rfl
@[simp] theorem State.loadSeed_edges (s : State) (d : Byte) : (s.loadSeed d).edges = s.edges := rfl
@[simp] theorem State.loadSeed_pbufEpoch (s : State) (d : Byte) : (s.loadSeed d).pbufEpoch = s.pbufEpoch := rfl

/-! `State.absorb` -/

@[simp] theorem State.absorb_sr (s : State) (k c : Byte) : (s.absorb k c).sr = s.sr := rfl
@[simp] theorem State.absorb_ks (s : State) (k c : Byte) : (s.absorb k c).ks = k := rfl
@[simp] theorem State.absorb_ck (s : State) (k c : Byte) : (s.absorb k c).ck = c := rfl
@[simp] theorem State.absorb_mode (s : State) (k c : Byte) : (s.absorb k c).mode = s.mode := rfl
@[simp] theorem State.absorb_cnt (s : State) (k c : Byte) : (s.absorb k c).cnt = s.cnt + 1 := rfl
@[simp] theorem State.absorb_zs (s : State) (k c : Byte) : (s.absorb k c).zs = s.zs := rfl
@[simp] theorem State.absorb_ovf (s : State) (k c : Byte) : (s.absorb k c).ovf = s.ovf := rfl
@[simp] theorem State.absorb_res (s : State) (k c : Byte) : (s.absorb k c).res = s.res := rfl
@[simp] theorem State.absorb_rsn (s : State) (k c : Byte) : (s.absorb k c).rsn = s.rsn := rfl
@[simp] theorem State.absorb_plen (s : State) (k c : Byte) : (s.absorb k c).plen = s.plen := rfl
@[simp] theorem State.absorb_cfg (s : State) (k c : Byte) : (s.absorb k c).cfg = s.cfg := rfl
@[simp] theorem State.absorb_errf (s : State) (k c : Byte) : (s.absorb k c).errf = s.errf := rfl
@[simp] theorem State.absorb_errc (s : State) (k c : Byte) : (s.absorb k c).errc = s.errc := rfl
@[simp] theorem State.absorb_pbuf (s : State) (k c : Byte) : (s.absorb k c).pbuf = s.pbuf := rfl
@[simp] theorem State.absorb_rsp (s : State) (k c : Byte) : (s.absorb k c).rsp = s.rsp := rfl
@[simp] theorem State.absorb_inputs (s : State) (k c : Byte) : (s.absorb k c).inputs = s.inputs := rfl
@[simp] theorem State.absorb_edges (s : State) (k c : Byte) : (s.absorb k c).edges = s.edges := rfl
@[simp] theorem State.absorb_pbufEpoch (s : State) (k c : Byte) : (s.absorb k c).pbufEpoch = s.pbufEpoch := rfl

/-! `State.setResult` -/

@[simp] theorem State.setResult_sr (s : State) (r : Res) (y : Rsn) (n : Byte) : (s.setResult r y n).sr = s.sr := rfl
@[simp] theorem State.setResult_ks (s : State) (r : Res) (y : Rsn) (n : Byte) : (s.setResult r y n).ks = s.ks := rfl
@[simp] theorem State.setResult_ck (s : State) (r : Res) (y : Rsn) (n : Byte) : (s.setResult r y n).ck = s.ck := rfl
@[simp] theorem State.setResult_mode (s : State) (r : Res) (y : Rsn) (n : Byte) : (s.setResult r y n).mode = s.mode := rfl
@[simp] theorem State.setResult_cnt (s : State) (r : Res) (y : Rsn) (n : Byte) : (s.setResult r y n).cnt = s.cnt := rfl
@[simp] theorem State.setResult_zs (s : State) (r : Res) (y : Rsn) (n : Byte) : (s.setResult r y n).zs = s.zs := rfl
@[simp] theorem State.setResult_ovf (s : State) (r : Res) (y : Rsn) (n : Byte) : (s.setResult r y n).ovf = s.ovf := rfl
@[simp] theorem State.setResult_res (s : State) (r : Res) (y : Rsn) (n : Byte) : (s.setResult r y n).res = r := rfl
@[simp] theorem State.setResult_rsn (s : State) (r : Res) (y : Rsn) (n : Byte) : (s.setResult r y n).rsn = y := rfl
@[simp] theorem State.setResult_plen (s : State) (r : Res) (y : Rsn) (n : Byte) : (s.setResult r y n).plen = n := rfl
@[simp] theorem State.setResult_cfg (s : State) (r : Res) (y : Rsn) (n : Byte) : (s.setResult r y n).cfg = s.cfg := rfl
@[simp] theorem State.setResult_errf (s : State) (r : Res) (y : Rsn) (n : Byte) : (s.setResult r y n).errf = s.errf := rfl
@[simp] theorem State.setResult_errc (s : State) (r : Res) (y : Rsn) (n : Byte) : (s.setResult r y n).errc = s.errc := rfl
@[simp] theorem State.setResult_pbuf (s : State) (r : Res) (y : Rsn) (n : Byte) : (s.setResult r y n).pbuf = s.pbuf := rfl
@[simp] theorem State.setResult_rsp (s : State) (r : Res) (y : Rsn) (n : Byte) : (s.setResult r y n).rsp = s.rsp := rfl
@[simp] theorem State.setResult_inputs (s : State) (r : Res) (y : Rsn) (n : Byte) : (s.setResult r y n).inputs = s.inputs := rfl
@[simp] theorem State.setResult_edges (s : State) (r : Res) (y : Rsn) (n : Byte) : (s.setResult r y n).edges = s.edges := rfl
@[simp] theorem State.setResult_pbufEpoch (s : State) (r : Res) (y : Rsn) (n : Byte) : (s.setResult r y n).pbufEpoch = s.pbufEpoch := rfl

/-! `State.clearCounts` -/

@[simp] theorem State.clearCounts_sr (s : State) : s.clearCounts.sr = s.sr := rfl
@[simp] theorem State.clearCounts_ks (s : State) : s.clearCounts.ks = s.ks := rfl
@[simp] theorem State.clearCounts_ck (s : State) : s.clearCounts.ck = s.ck := rfl
@[simp] theorem State.clearCounts_mode (s : State) : s.clearCounts.mode = s.mode := rfl
@[simp] theorem State.clearCounts_cnt (s : State) : s.clearCounts.cnt = 0 := rfl
@[simp] theorem State.clearCounts_zs (s : State) : s.clearCounts.zs = false := rfl
@[simp] theorem State.clearCounts_ovf (s : State) : s.clearCounts.ovf = false := rfl
@[simp] theorem State.clearCounts_res (s : State) : s.clearCounts.res = s.res := rfl
@[simp] theorem State.clearCounts_rsn (s : State) : s.clearCounts.rsn = s.rsn := rfl
@[simp] theorem State.clearCounts_plen (s : State) : s.clearCounts.plen = s.plen := rfl
@[simp] theorem State.clearCounts_cfg (s : State) : s.clearCounts.cfg = s.cfg := rfl
@[simp] theorem State.clearCounts_errf (s : State) : s.clearCounts.errf = s.errf := rfl
@[simp] theorem State.clearCounts_errc (s : State) : s.clearCounts.errc = s.errc := rfl
@[simp] theorem State.clearCounts_pbuf (s : State) : s.clearCounts.pbuf = s.pbuf := rfl
@[simp] theorem State.clearCounts_rsp (s : State) : s.clearCounts.rsp = s.rsp := rfl
@[simp] theorem State.clearCounts_inputs (s : State) : s.clearCounts.inputs = s.inputs := rfl
@[simp] theorem State.clearCounts_edges (s : State) : s.clearCounts.edges = s.edges := rfl
@[simp] theorem State.clearCounts_pbufEpoch (s : State) : s.clearCounts.pbufEpoch = s.pbufEpoch := rfl

/-! `State.tick` -/

@[simp] theorem State.tick_sr (s : State) : s.tick.sr = s.sr := rfl
@[simp] theorem State.tick_ks (s : State) : s.tick.ks = s.ks := rfl
@[simp] theorem State.tick_ck (s : State) : s.tick.ck = s.ck := rfl
@[simp] theorem State.tick_mode (s : State) : s.tick.mode = s.mode := rfl
@[simp] theorem State.tick_cnt (s : State) : s.tick.cnt = s.cnt := rfl
@[simp] theorem State.tick_zs (s : State) : s.tick.zs = s.zs := rfl
@[simp] theorem State.tick_ovf (s : State) : s.tick.ovf = s.ovf := rfl
@[simp] theorem State.tick_res (s : State) : s.tick.res = s.res := rfl
@[simp] theorem State.tick_rsn (s : State) : s.tick.rsn = s.rsn := rfl
@[simp] theorem State.tick_plen (s : State) : s.tick.plen = s.plen := rfl
@[simp] theorem State.tick_cfg (s : State) : s.tick.cfg = s.cfg := rfl
@[simp] theorem State.tick_errf (s : State) : s.tick.errf = s.errf := rfl
@[simp] theorem State.tick_errc (s : State) : s.tick.errc = s.errc := rfl
@[simp] theorem State.tick_pbuf (s : State) : s.tick.pbuf = s.pbuf := rfl
@[simp] theorem State.tick_rsp (s : State) : s.tick.rsp = s.rsp := rfl
@[simp] theorem State.tick_inputs (s : State) : s.tick.inputs = s.inputs.tail := rfl
@[simp] theorem State.tick_edges (s : State) : s.tick.edges = s.edges + 1 := rfl
@[simp] theorem State.tick_pbufEpoch (s : State) : s.tick.pbufEpoch = s.pbufEpoch := rfl

/-! `resetEdge` -/

/-- After an `rst` edge only the host's inputs, the edge count and the PBUF stamp depend on the state before. -/
theorem resetEdge_eq (s : State) :
    resetEdge s = { State.reset with inputs := s.inputs, edges := s.edges, pbufEpoch := s.edges } := rfl

@[simp] theorem resetEdge_sr (s : State) : (resetEdge s).sr = State.reset.sr := rfl
@[simp] theorem resetEdge_ks (s : State) : (resetEdge s).ks = State.reset.ks := rfl
@[simp] theorem resetEdge_ck (s : State) : (resetEdge s).ck = State.reset.ck := rfl
@[simp] theorem resetEdge_mode (s : State) : (resetEdge s).mode = State.reset.mode := rfl
@[simp] theorem resetEdge_cnt (s : State) : (resetEdge s).cnt = State.reset.cnt := rfl
@[simp] theorem resetEdge_zs (s : State) : (resetEdge s).zs = State.reset.zs := rfl
@[simp] theorem resetEdge_ovf (s : State) : (resetEdge s).ovf = State.reset.ovf := rfl
@[simp] theorem resetEdge_res (s : State) : (resetEdge s).res = State.reset.res := rfl
@[simp] theorem resetEdge_rsn (s : State) : (resetEdge s).rsn = State.reset.rsn := rfl
@[simp] theorem resetEdge_plen (s : State) : (resetEdge s).plen = State.reset.plen := rfl
@[simp] theorem resetEdge_cfg (s : State) : (resetEdge s).cfg = State.reset.cfg := rfl
@[simp] theorem resetEdge_errf (s : State) : (resetEdge s).errf = State.reset.errf := rfl
@[simp] theorem resetEdge_errc (s : State) : (resetEdge s).errc = State.reset.errc := rfl
@[simp] theorem resetEdge_pbuf (s : State) : (resetEdge s).pbuf = State.reset.pbuf := rfl
@[simp] theorem resetEdge_rsp (s : State) : (resetEdge s).rsp = State.reset.rsp := rfl
@[simp] theorem resetEdge_inputs (s : State) : (resetEdge s).inputs = s.inputs := rfl
@[simp] theorem resetEdge_edges (s : State) : (resetEdge s).edges = s.edges := rfl
@[simp] theorem resetEdge_pbufEpoch (s : State) : (resetEdge s).pbufEpoch = s.edges := rfl

end Sys2Proof.Machine
end

