-- ==== Sys2Proof/Laws/Ops.lean ====
section
/-! SUPPORT. For each shared operation, what it can do, said once. -/

namespace Sys2Proof.Machine

/-- `emit` completes, with the response loaded. -/
theorem emit_eq (t : Tag) (b : Byte) (s : State) : emit t b s = .next (s.respond (emitWord t b)) := rfl

/-- `emit_none` completes with the empty response. -/
theorem emitNone_eq (s : State) : emitNone s = .next (s.respond emptyWord) := rfl

/-- A rejection completes in the rejected state (60_exceptions.md R211). -/
theorem raise_eq (e : ErrCode) (s : State) : raise e s = .next (s.rejected e) := rfl

/-- The rejected state, spelled out. -/
theorem State.rejected_eq (s : State) (e : ErrCode) :
    s.rejected e = { s with errc := e, errf := true, rsp := some (e.code.setWidth 32) } := rfl

theorem emit_next {t : Tag} {b : Byte} {s u : State} : emit t b s = .next u ↔ u = s.respond (emitWord t b) := by
  rw [emit_eq, Host.Outcome.next.injEq, eq_comm]

theorem emitNone_next {s u : State} : emitNone s = .next u ↔ u = s.respond emptyWord := by
  rw [emitNone_eq, Host.Outcome.next.injEq, eq_comm]

theorem raise_next {e : ErrCode} {s u : State} : raise e s = .next u ↔ u = s.rejected e := by
  rw [raise_eq, Host.Outcome.next.injEq, eq_comm]

/-- In the required MODE the command goes on. -/
theorem requireMode_of_eq {m : Mode} {s : State} (k : Out) (h : s.mode = m) : requireMode m s k = k := if_pos h

/-- In another MODE it is rejected with SEQ. -/
theorem requireMode_of_ne {m : Mode} {s : State} (k : Out) (h : s.mode ≠ m) :
    requireMode m s k = .next (s.rejected .seq) := if_neg h

/-- What a command guarded by `requireMode` can do. -/
theorem requireMode_cases {m : Mode} {s u : State} {k : Out} (h : requireMode m s k = .next u) :
    (s.mode = m ∧ k = .next u) ∨ (s.mode ≠ m ∧ u = s.rejected .seq) := by
  by_cases hm : s.mode = m
  · exact .inl ⟨hm, by rwa [requireMode_of_eq k hm] at h⟩
  · rw [requireMode_of_ne k hm, Host.Outcome.next.injEq] at h
    exact .inr ⟨hm, h.symm⟩

/-- A load inside the buffer gives the entry's value. -/
theorem loadPayload_of_lt {n i : Byte} (s : State) (h : i < n) : loadPayload n i s = .ok (payloadValue s i.toNat) :=
  if_pos h

/-- A store inside the buffer writes the entry. -/
theorem storePayload_of_lt {n i : Byte} (v : Byte) (s : State) (h : i < n) :
    storePayload n i v s = .ok { s with pbuf := writeByte s.pbuf i.toNat v } := if_pos h

/-- Outside the buffer a load or a store faults by name. -/
theorem loadPayload_of_not_lt {n i : Byte} (s : State) (h : ¬ i < n) :
    loadPayload n i s = .error (.payloadIndexOutside i.toNat) := if_neg h

theorem storePayload_of_not_lt {n i : Byte} (v : Byte) (s : State) (h : ¬ i < n) :
    storePayload n i v s = .error (.payloadIndexOutside i.toNat) := if_neg h

/-- What a store can do: it wrote one entry of the buffer and nothing else. -/
theorem storePayload_ok {n i v : Byte} {s t : State} (h : storePayload n i v s = .ok t) :
    i < n ∧ t = { s with pbuf := writeByte s.pbuf i.toNat v } := by
  unfold storePayload at h
  split at h
  · exact ⟨‹_›, (Except.ok.inj h).symm⟩
  · cases h

/-- A store keeps PBUF's canonical form. -/
theorem storePayload_wfAt {n i v : Byte} {s t : State} (h : storePayload n i v s = .ok t)
    (hw : Memory.wfAt n.toNat s.pbuf = true) : Memory.wfAt n.toNat t.pbuf = true := by
  obtain ⟨hi, rfl⟩ := storePayload_ok h
  exact Memory.wfAt_writeByte v hw hi

/-- A written entry's value is the byte written. -/
theorem payloadValue_of_written {s : State} {a : Nat} {v : Byte} (h : readByte s.pbuf a = some v) :
    payloadValue s a = v := by
  simp [payloadValue, h]

/-- With 8-bit indices, an index other than 255 lies in this hardware's buffer. -/
theorem lt_nMax_of_ne {i : Byte} (h : i ≠ Config.nMax) : i < Config.nMax := by
  simp only [Config.nMax, ne_eq] at h ⊢
  bv_omega

/-- Below any 8-bit bound, an index lies in this hardware's buffer. -/
theorem lt_nMax_of_lt {i p : Byte} (h : i < p) : i < Config.nMax := by
  simp only [Config.nMax]
  bv_omega

/-- The frame's end writes RES, RSN, PLEN and MODE. -/
theorem endFrame_valid (s : State) :
    endFrame .noReason s = { s with res := .valid, rsn := .noReason, plen := s.cnt, mode := .idle } := rfl

theorem endFrame_invalid {r : Rsn} (s : State) (h : r ≠ .noReason) :
    endFrame r s = { s with res := .invalid, rsn := r, plen := 0, mode := .idle } := by
  cases r <;> first | rfl | exact absurd rfl h

/-- When the validation finds no fault (42_frame_decode.md R142). -/
theorem decodeReason_eq_noReason {d : Byte} {s : State} :
    decodeReason d s = .noReason ↔
      s.zs = false ∧ s.ovf = false ∧ s.cnt ≠ 0 ∧ (s.cfg = 0 ∨ s.cnt = s.cfg) ∧ s.ck = d := by
  have hl : lengthWrong s = false ↔ s.cfg = 0 ∨ s.cnt = s.cfg := by
    by_cases h0 : s.cfg = 0 <;> by_cases h1 : s.cnt = s.cfg <;> simp [lengthWrong, h0, h1]
  rw [← hl]
  unfold decodeReason
  by_cases h1 : s.zs = true
  · simp [h1]
  by_cases h2 : s.ovf = true
  · simp [h1, h2]
  by_cases h3 : s.cnt = 0
  · simp [h1, h2, h3]
  have h3' : ¬ s.cnt = 0#8 := h3
  by_cases h4 : lengthWrong s = true
  · simp [h1, h2, h3', h4]
  by_cases h5 : s.ck = d
  · simp [h1, h2, h3', h4, h5]
  · simp [h1, h2, h3', h4, h5]

/-- DECB and RDPAY stay inside this hardware's PBUF, whatever the state. -/
theorem decbAt_nMax_ok {s : State} (v : Byte) (h : s.cnt ≠ Config.nMax) :
    storePayload Config.nMax s.cnt v s = .ok { s with pbuf := writeByte s.pbuf s.cnt.toNat v } :=
  storePayload_of_lt v s (lt_nMax_of_ne h)

theorem rdpayAt_nMax_ok {d : Byte} {s : State} (h : d < s.plen) :
    loadPayload Config.nMax d s = .ok (payloadValue s d.toNat) :=
  loadPayload_of_lt s (lt_nMax_of_lt h)

end Sys2Proof.Machine
end

