-- ==== Sys2Proof/Laws/PerInstr.lean ====
section
/-! SUPPORT. Facts about every command as syntax, one lemma per constructor. -/

namespace Sys2Proof.Laws

/-- The encoding of a command is its row's `match` in the bits the mask 0xFF00 covers, and its operand in the bits it leaves
(spec 30_encoding.md R60, R62). -/
def EncodingLayout.Statement (i : Instr) : Prop :=
  encode i &&& 0xFF00 = i.matchBits ∧ dField (encode i) = i.operandByte

theorem EncodingLayout.nop : EncodingLayout.Statement .nop := by
  constructor <;> rfl

theorem EncodingLayout.clrerr : EncodingLayout.Statement .clrerr := by
  constructor <;> rfl

theorem EncodingLayout.abort : EncodingLayout.Statement .abort := by
  constructor <;> rfl

theorem EncodingLayout.srst : EncodingLayout.Statement .srst := by
  constructor <;> rfl

theorem EncodingLayout.sset (d : Byte) : EncodingLayout.Statement (.sset d) := by
  revert d; unfold EncodingLayout.Statement; decide

theorem EncodingLayout.sstep (b : Bool) : EncodingLayout.Statement (.sstep b) := by
  revert b; unfold EncodingLayout.Statement; decide

theorem EncodingLayout.schk (d : Byte) : EncodingLayout.Statement (.schk d) := by
  revert d; unfold EncodingLayout.Statement; decide

theorem EncodingLayout.encs (d : Byte) : EncodingLayout.Statement (.encs d) := by
  revert d; unfold EncodingLayout.Statement; decide

theorem EncodingLayout.encb (d : Byte) : EncodingLayout.Statement (.encb d) := by
  revert d; unfold EncodingLayout.Statement; decide

theorem EncodingLayout.ence : EncodingLayout.Statement .ence := by
  constructor <;> rfl

theorem EncodingLayout.decb (d : Byte) : EncodingLayout.Statement (.decb d) := by
  revert d; unfold EncodingLayout.Statement; decide

theorem EncodingLayout.dece (d : Byte) : EncodingLayout.Statement (.dece d) := by
  revert d; unfold EncodingLayout.Statement; decide

theorem EncodingLayout.decs (d : Byte) : EncodingLayout.Statement (.decs d) := by
  revert d; unfold EncodingLayout.Statement; decide

theorem EncodingLayout.dec1 (d : Byte) : EncodingLayout.Statement (.dec1 d) := by
  revert d; unfold EncodingLayout.Statement; decide

theorem EncodingLayout.map (d : Byte) : EncodingLayout.Statement (.map d) := by
  revert d; unfold EncodingLayout.Statement; decide

theorem EncodingLayout.cfgw (d : Byte) : EncodingLayout.Statement (.cfgw d) := by
  revert d; unfold EncodingLayout.Statement; decide

theorem EncodingLayout.rdreg (d : Byte) : EncodingLayout.Statement (.rdreg d) := by
  revert d; unfold EncodingLayout.Statement; decide

theorem EncodingLayout.rdpay (d : Byte) : EncodingLayout.Statement (.rdpay d) := by
  revert d; unfold EncodingLayout.Statement; decide

end Sys2Proof.Laws
end

