-- ==== Sys2Proof/Laws/Step.lean ====
section
/-! SUPPORT. What one rising edge can do, said once. -/

namespace Sys2Proof.Machine

@[simp] theorem State.pins_nil {s : State} (h : s.inputs = []) : s.pins = Pins.quiet := by
  simp [State.pins, h]

@[simp] theorem State.pins_cons {s : State} {p : Pins} {rest : List Pins} (h : s.inputs = p :: rest) : s.pins = p := by
  simp [State.pins, h]

/-- When an edge accepts a command word (10_state.md R31). -/
theorem accepts_iff {p : Pins} {s : State} :
    accepts p s = true ↔ p.rst = false ∧ p.cmdValid = true ∧ (s.rsp = none ∨ p.rspReady = true) := by
  cases hr : p.rst <;> cases hv : p.cmdValid <;> simp [accepts, cmdReady, hr, hv]

/-- An edge with `rst = 1`. -/
theorem step_of_rst {s : State} (h : s.pins.rst = true) : step s = .next (resetEdge s.tick) := by
  simp [step, clockEdge, h]

/-- An edge that accepts a command. -/
theorem step_of_accepts {s : State} (h : accepts s.pins s = true) :
    step s = acceptWord exec s.pins.cmdData s.tick := by
  have hr : s.pins.rst = false := by
    simp only [accepts, Bool.and_eq_true, Bool.not_eq_true'] at h
    exact h.1.1
  simp [step, clockEdge, hr, h]

/-- An edge that accepts none. -/
theorem step_of_not_accepts {s : State} (hr : s.pins.rst = false) (h : accepts s.pins s = false) :
    step s = .next { s.tick with rsp := if s.pins.rspReady then none else s.rsp } := by
  cases hp : s.pins.rspReady <;> simp [step, clockEdge, hr, h, hp, State.tick]

/-- An accepted word that decodes runs its command. -/
theorem acceptWord_of_ok {w : CmdWord} {i : Instr} (run : Instr → State → Out) (s : State) (h : decode w = .ok i) :
    acceptWord run w s = run i s := by
  simp [acceptWord, h]

/-- An accepted illegal word is rejected with ILLEGAL. -/
theorem acceptWord_of_error {w : CmdWord} {e : DecodeError} (run : Instr → State → Out) (s : State)
    (h : decode w = .error e) : acceptWord run w s = .next (s.rejected .illegal) := by
  simp [acceptWord, h, raise_eq]

/-- An accepted word runs its command, or is rejected with ILLEGAL. -/
theorem acceptWord_cases {run : Instr → State → Out} {w : CmdWord} {s t : State}
    (h : acceptWord run w s = .next t) :
    (∃ i, decode w = .ok i ∧ run i s = .next t) ∨ (∃ e, decode w = .error e ∧ t = s.rejected .illegal) := by
  unfold acceptWord at h
  split at h
  · exact .inl ⟨_, ‹_›, h⟩
  · exact .inr ⟨_, ‹_›, raise_next.mp h⟩

/-- Everything a step can do: a reset edge, a command, an illegal word, or an edge without a command. -/
theorem step_cases {s t : State} (h : step s = .next t) :
    t = resetEdge s.tick ∨
    (∃ i, decode s.pins.cmdData = .ok i ∧ exec i s.tick = .next t) ∨
    t = s.tick.rejected .illegal ∨
    t = { s.tick with rsp := if s.pins.rspReady then none else s.rsp } := by
  cases hr : s.pins.rst with
  | true => rw [step_of_rst hr, Host.Outcome.next.injEq] at h; exact .inl h.symm
  | false =>
    cases ha : accepts s.pins s with
    | true =>
      rw [step_of_accepts ha] at h
      obtain ⟨i, hi, he⟩ | ⟨e, -, rfl⟩ := acceptWord_cases h
      · exact .inr (.inl ⟨i, hi, he⟩)
      · exact .inr (.inr (.inl rfl))
    | false =>
      rw [step_of_not_accepts hr ha, Host.Outcome.next.injEq] at h
      exact .inr (.inr (.inr h.symm))

end Sys2Proof.Machine
end

