-- ==== Sys2Proof/Tests/Slice0.lean ====
section
/-! SUPPORT. Tests. Expected values come from spec/: the examples of the command rules, the tables of 95_test_vectors.md and hand
assembly from 30_encoding.md R62. Each runs one step at most. -/

namespace Sys2Proof.Tests

open Sys2Proof Sys2Proof.Machine

/-! Helpers -/

/-- The next state of a command, where it has one. -/
def next? (o : Out) : Option State :=
  match o with
  | .next t => some t
  | .fault _ => none
  | .refused _ => none

/-- What a function reads of the state after a command. -/
def after {α : Type} (i : Instr) (s : State) (f : State → α) : Option α := (next? (exec i s)).map f

/-- What a function reads of the state after the edge at which word `w` is accepted. -/
def afterWord {α : Type} (w : Nat) (s : State) (f : State → α) : Option α := (next? (step (s.withFetchWord 16 w))).map f

/-- An encode frame in progress. -/
def enc (ks ck cnt cfg : Byte) : State := { State.reset with mode := .enc, ks := ks, ck := ck, cnt := cnt, cfg := cfg }

/-- A decode frame in progress. -/
def dec (ks ck cnt cfg : Byte) : State := { State.reset with mode := .dec, ks := ks, ck := ck, cnt := cnt, cfg := cfg }

/-- After a decode that ended VALID with payload `b8 00`. -/
def valid2 : State := { State.reset with res := .valid, plen := 2, pbuf := [(0, 0xb8), (1, 0x00)] }

/-- After a rejected command. -/
def erred : State := { State.reset with errf := true, errc := .range }

/-! Every constructor's word, written out from R62 -/

theorem test_decode_nop : decode 0x0000 = .ok .nop ∧ decode 0x00ff = .ok .nop := by decide
theorem test_decode_clrerr : decode 0x0100 = .ok .clrerr := by decide
theorem test_decode_abort : decode 0x0200 = .ok .abort := by decide
theorem test_decode_srst : decode 0x0300 = .ok .srst := by decide
theorem test_decode_sset : decode 0x10d0 = .ok (.sset 0xd0) := by decide
theorem test_decode_sstep : decode 0x11fe = .ok (.sstep false) ∧ decode 0x11ff = .ok (.sstep true) := by decide
theorem test_decode_schk : decode 0x12b8 = .ok (.schk 0xb8) := by decide
theorem test_decode_encs : decode 0x20d0 = .ok (.encs 0xd0) := by decide
theorem test_decode_encb : decode 0x21b8 = .ok (.encb 0xb8) := by decide
theorem test_decode_ence : decode 0x2200 = .ok .ence := by decide
theorem test_decode_decb : decode 0x30d0 = .ok (.decb 0xd0) := by decide
theorem test_decode_dece : decode 0x3157 = .ok (.dece 0x57) := by decide
theorem test_decode_decs : decode 0x32d0 = .ok (.decs 0xd0) := by decide
theorem test_decode_dec1 : decode 0x3380 = .ok (.dec1 0x80) := by decide
theorem test_decode_map : decode 0x40a5 = .ok (.map 0xa5) := by decide
theorem test_decode_cfgw : decode 0x5005 = .ok (.cfgw 5) := by decide
theorem test_decode_rdreg : decode 0x6009 = .ok (.rdreg 9) := by decide
theorem test_decode_rdpay : decode 0x6104 = .ok (.rdpay 4) := by decide

/-- 95 C-3: the illegal words, each for its reason. -/
theorem test_decode_illegal :
    decode 0x0400 = .error .reservedBits ∧ decode 0x0c00 = .error .reservedBits ∧
    decode 0x1300 = .error .unassignedSub ∧ decode 0x2300 = .error .unassignedSub ∧
    decode 0x4100 = .error .unassignedSub ∧ decode 0x5100 = .error .unassignedSub ∧
    decode 0x6200 = .error .unassignedSub ∧ decode 0x6300 = .error .unassignedSub ∧
    decode 0x7000 = .error .unassignedOp ∧ decode 0xf0ff = .error .unassignedOp := by decide

/-- R62's words come out of the encoder. -/
theorem test_encode :
    [Instr.clrerr, .sset 0xd0, .sstep true, .encb 0xb8, .ence, .dece 0x57, .decs 0xd0, .cfgw 5, .rdpay 4].map encode =
      [0x0100, 0x10d0, 0x1101, 0x21b8, 0x2200, 0x3157, 0x32d0, 0x5005, 0x6104] := by decide

/-- The host's numbering: one 16-bit word. -/
theorem test_decode_table_word :
    decodeTableWord 16 0x11ff = some (.sstep true) ∧ decodeTableWord 16 0x7000 = none := by decide

/-! WellFormed: an ill-formed term for each check -/

theorem test_line_unknown_mnemonic : Line.wellFormed ⟨"FOO", none⟩ = false := by decide
theorem test_line_missing_operand : Line.wellFormed ⟨"SSET", none⟩ = false := by decide
theorem test_line_extra_operand : Line.wellFormed ⟨"ABORT", some 0⟩ = false := by decide
theorem test_line_operand_too_large :
    Line.wellFormed ⟨"ENCS", some 256⟩ = false ∧ Line.wellFormed ⟨"ENCS", some 255⟩ = true := by decide
theorem test_line_sstep_operand :
    Line.wellFormed ⟨"SSTEP", some 2⟩ = false ∧ Line.wellFormed ⟨"SSTEP", some 1⟩ = true := by decide
theorem test_pseudo_encode_zero_seed : Pseudo.wellFormed 255 (.encode 0 [1]) = false := by decide
theorem test_pseudo_encode_empty : Pseudo.wellFormed 255 (.encode 1 []) = false := by decide
theorem test_pseudo_encode_too_long :
    Pseudo.wellFormed 2 (.encode 1 [0, 0, 0]) = false ∧ Pseudo.wellFormed 2 (.encode 1 [0, 0]) = true := by decide
theorem test_pseudo_decode_empty : Pseudo.wellFormed 255 (.decode []) = false := by decide
theorem test_pseudo_readpay_too_long : Pseudo.wellFormed 255 (.readpay 257) = false := by decide

/-! The scrambler functions (95 section 2.1) -/

theorem test_step :
    lfsrStep 0x00 false = 0x00 ∧ lfsrStep 0x00 true = 0xaf ∧ lfsrStep 0x01 false = 0xaf ∧ lfsrStep 0x01 true = 0x00 ∧
    lfsrStep 0xff false = 0xd0 ∧ lfsrStep 0xff true = 0x7f ∧ lfsrStep 0x80 true = 0xef ∧ lfsrStep 0x5e true = 0x80 := by
  decide

set_option maxRecDepth 10000 in
theorem test_keystream :
    keystream 0x01 16 =
      [0xaf, 0xf8, 0x7c, 0x3e, 0x1f, 0xa0, 0x50, 0x28, 0x14, 0x0a, 0x05, 0xad, 0xf9, 0xd3, 0xc6, 0x63] := by decide

set_option maxRecDepth 10000 in
/-- R102's full table, first and last row. -/
theorem test_eight_steps_table :
    (List.range 16).map (fun i => eightSteps (BitVec.ofNat 8 i)) =
      [0x00, 0x28, 0x50, 0x78, 0xa0, 0x88, 0xf0, 0xd8, 0x1f, 0x37, 0x4f, 0x67, 0xbf, 0x97, 0xef, 0xc7] ∧
    (List.range 16).map (fun i => checksumNetwork (BitVec.ofNat 8 (0xf0 + i))) =
      [0x15, 0x3d, 0x45, 0x6d, 0xb5, 0x9d, 0xe5, 0xcd, 0x0a, 0x22, 0x5a, 0x72, 0xaa, 0x82, 0xfa, 0xd2] := by decide

set_option maxRecDepth 10000 in
theorem test_checksum :
    chk8 0xd0 0xb8 = 0x9b ∧ chk8 0x00 0x80 = 0xaf ∧ checksum 0x01 [0x68, 0x65, 0x6c, 0x6c, 0x6f] = 0x96 ∧
    checksum 0x42 [] = 0x42 := by decide

set_option maxRecDepth 10000 in
/-- L1-1 as 90_conflicts.md C1 and C2 correct it: the payload, and the integer 1599048632. -/
theorem test_literal_vector :
    decodeFrame [0xd0, 0xd0, 0xbf, 0x55, 0x52, 0xa9, 0x57] = some [0xb8, 0x8b, 0x4f, 0x5f, 0x00] ∧
    encodeFrame 0xd0 [0xb8, 0x8b, 0x4f, 0x5f, 0x00] = [0xd0, 0xd0, 0xbf, 0x55, 0x52, 0xa9, 0x57] ∧
    payloadInteger [0xb8, 0x8b, 0x4f, 0x5f, 0x00] = 1599048632 := by decide

set_option maxRecDepth 10000 in
/-- E-6, E-8, D-2 and D-10: two more frames, one with a wrong checksum, and a two-byte error that passes. -/
theorem test_frames :
    encodeFrame 0xd0 [0xb8, 0x76, 0xa4, 0x5e, 0x00] = [0xd0, 0xd0, 0x42, 0xbe, 0x53, 0xa9, 0x2d] ∧
    encodeFrame 0x01 [1, 2, 3, 4, 5, 6, 7, 8] = [0x01, 0xae, 0xfa, 0x7f, 0x3a, 0x1a, 0xa6, 0x57, 0x20, 0xa6] ∧
    decodeFrame [0xd0, 0xd0, 0xbf, 0x55, 0x52, 0xa9, 0x56] = none ∧
    decodeFrame [0xd0, 0xd1, 0x97, 0x55, 0x52, 0xa9, 0x57] = some [0xb9, 0xa3, 0x4f, 0x5f, 0x00] := by decide

/-! Commands, one step each -/

theorem test_nop_any_mode : after .nop (dec 1 2 3 0) (fun t => (t.mode, t.cnt, t.rsp)) = some (.dec, 3, some 0) := by decide
theorem test_clrerr : after .clrerr erred (fun t => (t.errf, t.errc, t.rsp)) = some (false, .noError, some 0) := by decide
/-- D-18: KS and CK are kept. -/
theorem test_abort :
    after .abort (dec 0x7c 0x6a 3 0) (fun t => (t.mode, t.cnt, t.ks, t.ck)) = some (.idle, 0, 0x7c, 0x6a) := by decide
theorem test_srst_keeps_pbuf :
    after .srst { valid2 with sr := 0x55, errf := true } (fun t => (t.sr, t.res, t.errf, t.pbuf)) =
      some (0, .noResult, false, [(0, 0xb8), (1, 0x00)]) := by decide
theorem test_sset : after (.sset 0xd0) (enc 1 2 3 0) (fun t => (t.sr, t.rsp, t.ks)) = some (0xd0, some 0, 1) := by decide
theorem test_sstep :
    after (.sstep false) { State.reset with sr := 0xd0 } (fun t => (t.sr, t.rsp)) = some (0x68, some 0x00006890) := by decide
theorem test_sstep_injects :
    after (.sstep true) { State.reset with sr := 0x68 } (fun t => t.rsp) = some (some 0x00009b90) := by decide
theorem test_schk :
    after (.schk 0xb8) { State.reset with sr := 0xd0 } (fun t => (t.sr, t.rsp)) = some (0x9b, some 0x00009b90) := by decide
theorem test_encs :
    after (.encs 0xd0) State.reset (fun t => (t.ks, t.ck, t.mode, t.rsp)) = some (0xd0, 0xd0, .enc, some 0x010dd030) := by
  decide
/-- E-13: SEQ before SEED0. -/
theorem test_encs_priority :
    after (.encs 0) (enc 1 1 0 0) (fun t => (t.rsp, t.ks)) = some (some 2, 1) ∧
    after (.encs 0) State.reset (fun t => (t.rsp, t.errc)) = some (some 3, .seed0) := by decide
theorem test_encb :
    after (.encb 0xb8) (enc 0xd0 0xd0 0 0) (fun t => (t.ks, t.ck, t.cnt, t.rsp)) =
      some (0x68, 0x9b, 1, some 0x010dd050) := by decide
/-- E-16, with N_MAX = 2. -/
theorem test_encb_overflow :
    (next? (encbAt 2 0 (enc 0xf8 0x63 2 0))).map (fun t => (t.rsp, t.ks, t.cnt)) = some (some 4, 0xf8, 2) := by decide
theorem test_ence :
    after .ence (enc 0xa9 0x57 5 0) (fun t => (t.mode, t.cnt, t.rsp)) = some (.idle, 5, some 0x01755770) := by decide
/-- E-14, E-15: EMPTY and LENGTH leave the block in ENC. -/
theorem test_ence_errors :
    after .ence (enc 1 1 0 5) (fun t => (t.rsp, t.mode)) = some (some 5, .enc) ∧
    after .ence (enc 0xaf 0x28 1 5) (fun t => (t.rsp, t.mode)) = some (some 6, .enc) := by decide
theorem test_decs :
    after (.decs 0x00) valid2 (fun t => (t.zs, t.mode, t.res, t.plen)) = some (true, .dec, .noResult, 0) := by decide
theorem test_decb :
    after (.decb 0xd0) (dec 0xd0 0xd0 0 0) (fun t => (t.pbuf, t.ck, t.cnt, t.rsp)) =
      some ([(0, 0xb8)], 0x9b, 1, some 0) := by decide
/-- D-8, with N_MAX = 2. -/
theorem test_decb_overflow :
    (next? (decbAt 2 0x7c (dec 0xf8 0x63 2 0))).map (fun t => (t.ovf, t.cnt, t.ks, t.rsp)) =
      some (true, 2, 0xf8, some 0) := by decide
/-- D-1 and D-2. -/
theorem test_dece :
    after (.dece 0x57) (dec 0xa9 0x57 5 5) (fun t => (t.res, t.plen, t.mode, t.rsp)) =
      some (.valid, 5, .idle, some 0x00000010) ∧
    after (.dece 0x56) (dec 0xa9 0x57 5 0) (fun t => (t.rsn, t.plen, t.rsp)) = some (.mismatch, 0, some 0x00000610) := by
  decide
/-- D-5, D-6, D-7 and the order of the reasons. -/
theorem test_dece_reasons :
    after (.dece 0) { dec 0 0 0 5 with zs := true, ovf := true } (fun t => t.rsp) = some (some 0x00000210) ∧
    after (.dece 0) { dec 1 0 0 5 with ovf := true } (fun t => t.rsp) = some (some 0x00000310) ∧
    after (.dece 5) (dec 5 5 0 5) (fun t => t.rsp) = some (some 0x00000410) ∧
    after (.dece 0x28) (dec 0xaf 0x28 1 5) (fun t => t.rsp) = some (some 0x00000510) := by decide
theorem test_dec1 :
    after (.dec1 0x00) State.reset (fun t => (t.rsn, statusByte t, t.rsp)) = some (.short, 0x18, some 0x00000110) := by decide
theorem test_map : after (.map 0xa5) State.reset (fun t => t.rsp) = some (some 0x015aa5b0) ∧
    after (.map 0xef) State.reset (fun t => t.rsp) = some (some 0x01feefb0) := by decide
theorem test_cfgw : after (.cfgw 5) State.reset (fun t => (t.cfg, t.rsp)) = some (5, some 0) := by decide
/-- C-5, and C-6 with N_MAX = 2. -/
theorem test_cfgw_errors :
    after (.cfgw 1) (enc 1 1 0 0) (fun t => (t.rsp, t.cfg)) = some (some 2, 0) ∧
    (next? (cfgwAt 2 3 State.reset)).map (fun t => (t.rsp, t.cfg)) = some (some 7, 0) := by decide
/-- C-2, C-3: STATUS with ERRF, FLAGS and NMAX. -/
theorem test_rdreg :
    after (.rdreg 0) { enc 1 1 0 0 with errf := true } (fun t => t.rsp) = some (some 0x000081d0) ∧
    after (.rdreg 8) { dec 1 1 2 0 with ovf := true } (fun t => t.rsp) = some (some 0x000002d0) ∧
    after (.rdreg 9) State.reset (fun t => t.rsp) = some (some 0x0000ffd0) := by decide
theorem test_rdreg_range : after (.rdreg 0x0a) State.reset (fun t => (t.rsp, t.errc)) = some (some 7, .range) := by decide
theorem test_rdpay :
    after (.rdpay 0) valid2 (fun t => t.rsp) = some (some 0x0000b8f0) ∧
    after (.rdpay 2) valid2 (fun t => t.rsp) = some (some 7) := by decide
/-- D-14. -/
theorem test_rdpay_not_valid : after (.rdpay 0) State.reset (fun t => t.rsp) = some (some 8) := by decide

/-! The edge -/

theorem test_edge_runs_word : afterWord 0x40a5 State.reset (fun t => (t.rsp, t.edges)) = some (some 0x015aa5b0, 1) := by decide
theorem test_edge_rejects_illegal :
    afterWord 0x7123 valid2 (fun t => (t.rsp, t.errf, t.errc, t.res)) = some (some 1, true, .illegal, .valid) := by decide
/-- R31, R63: an illegal word is accepted with rsp_ready = 0 while no response waits. -/
theorem test_edge_rejects_untaken :
    (next? (step { valid2 with inputs := [⟨false, true, 0x0400, false⟩] })).map (fun t => (t.rsp, t.errc, t.inputs)) =
      some (some 1, .illegal, []) := by decide
/-- R31, R32: a waiting response that the host does not take keeps the command out. -/
theorem test_edge_back_pressure :
    (next? (step { valid2 with rsp := some 7, inputs := [⟨false, true, 0x0300, false⟩] })).map (fun t => (t.rsp, t.res)) =
      some (some 7, .valid) := by decide
/-- R214: `rst` wins over a command at the same edge. -/
theorem test_edge_reset_wins :
    (next? (step { valid2 with rsp := some 7, inputs := [⟨true, true, 0x1055, true⟩] })).map
      (fun t => (t.rsp, t.res, t.sr, t.pbuf)) = some (none, .noResult, 0, []) := by decide
theorem test_edge_quiet : (next? (step valid2)).map (fun t => (t.plen, t.rsp)) = some (2, none) := by decide

/-! The assembler (R80, R81) -/

theorem test_assemble_line : assembleLine ⟨"RDPAY", some 4⟩ = some 0x6104 ∧ assembleLine ⟨"NOP", none⟩ = some 0x0000 := by
  decide
theorem test_assemble_text : assembleText "RDREG STATUS ; x".toList = some [0x6000] := by decide
theorem test_assemble_decode : assemblePseudo (.decode [0x01, 0xaf, 0x28]) = some [0x3201, 0x30af, 0x3128] := by decide

/-! Witnesses: a state and operands that meet the hypotheses of each statement, clause by clause -/

theorem witness_encode_of_decoded : decode 0x11ff = .ok (.sstep true) ∧ decode 0x0000 = .ok .nop := by decide
theorem witness_opcode_map :
    decode 0x61ff = .ok (.rdpay 0xff) ∧
    (⟨"NOP", 0x0000, 0xFF00⟩ : OpcodeRow) ∈ opcodeTable ∧ (0x00ff : CmdWord) &&& 0xFF00 = 0x0000 := by decide
theorem witness_illegal_word :
    (∃ e, decode 0x63ff = .error e) ∧
    ({ State.reset with inputs := [⟨false, true, 0x63ff, false⟩] } : State).inputs =
      (⟨false, true, 0x63ff, false⟩ : Pins) :: [] ∧ State.reset.rsp = none ∧
    ({ valid2 with rsp := some 7, inputs := [Pins.command 0x63ff] } : State).inputs = Pins.command 0x63ff :: [] ∧
    (Pins.command 0x63ff).rst = false ∧ (Pins.command 0x63ff).cmdValid = true ∧ (Pins.command 0x63ff).rspReady = true :=
  ⟨⟨_, rfl⟩, rfl, rfl, rfl, rfl, rfl, rfl⟩
theorem witness_ignored_bits :
    decode 0x1101 = .ok (.sstep true) ∧
    ((0x1101 : CmdWord) ^^^ 0x11ff) &&& (0xFF00 ||| (Instr.sstep true).usedBits.setWidth 16) = 0 := by decide
theorem witness_keystream_period : (0x01 : Byte) ≠ 0 ∧ (0xff : Byte) ≠ 0 := by decide
theorem witness_checksum_change : 1 < ([1, 2] : List Byte).length ∧ (0x80 : Byte) ≠ 0 := by decide
theorem witness_output_tag :
    (∃ t w, exec (.map 0xa5) State.reset = .next t ∧ t.rsp = some w ∧ rspCode w = 0) ∧
    ∃ t w, exec .nop State.reset = .next t ∧ t.rsp = some w ∧ rspCode w = 0 :=
  ⟨⟨_, _, rfl, rfl, by decide⟩, _, _, rfl, rfl, by decide⟩
theorem witness_command_error : ∃ e, decode 0x0400 = .error e := ⟨_, rfl⟩
theorem witness_rejection : ∃ t w, exec .ence State.reset = .next t ∧ t.rsp = some w ∧ rspCode w ≠ 0 :=
  ⟨_, _, rfl, rfl, by decide⟩
theorem witness_completion :
    (∃ t w, exec .nop erred = .next t ∧ t.rsp = some w ∧ rspCode w = 0) ∧
    ∃ t w, exec .clrerr erred = .next t ∧ t.rsp = some w ∧ rspCode w = 0 :=
  ⟨⟨_, _, rfl, rfl, by decide⟩, _, _, rfl, rfl, by decide⟩
theorem witness_sticky :
    erred.errf = true ∧ erred.errc ≠ .noError ∧ Instr.clrerr ∉ [Instr.nop, .ence] ∧ Instr.srst ∉ [Instr.nop, .ence] := by
  decide
theorem witness_frame_engine :
    (Instr.encs 1).mnemonic ∈ ["ENCS", "ENCB", "ENCE", "DECB", "DECE", "DECS", "DEC1", "RDPAY"] ∧
    (Instr.rdpay 0).mnemonic ∈ ["ENCS", "ENCB", "ENCE", "DECB", "DECE", "DECS", "DEC1", "RDPAY"] := by decide
theorem witness_encs :
    State.reset.mode = .idle ∧ (0x01 : Byte) ≠ 0 ∧ (0xff : Byte) ≠ 0 ∧ (enc 1 1 0 0).mode ≠ .idle := by decide
theorem witness_encb :
    (enc 1 1 254 0).mode = .enc ∧ (enc 1 1 254 0).cnt ≠ Config.nMax ∧ State.reset.mode ≠ .enc ∧
    (enc 1 1 255 0).mode = .enc ∧ (enc 1 1 255 0).cnt = Config.nMax := by decide
theorem witness_ence :
    (enc 1 1 1 0).mode = .enc ∧ (enc 1 1 1 0).cnt ≠ 0 ∧ (enc 1 1 1 0).cfg = 0 ∧
    (enc 1 1 255 255).cnt = (enc 1 1 255 255).cfg ∧ (enc 1 1 0 0).cnt = 0 ∧ State.reset.mode ≠ .enc ∧
    (enc 1 1 1 255).cfg ≠ 0 ∧ (enc 1 1 1 255).cnt ≠ (enc 1 1 1 255).cfg := by decide
set_option maxRecDepth 10000 in
theorem witness_streamed_encode :
    State.reset.mode = .idle ∧ (0x01 : Byte) ≠ 0 ∧ 1 ≤ ([0] : List Byte).length ∧ State.reset.cfg = 0 ∧
    (List.replicate 255 (0 : Byte)).length ≤ 255 ∧
    ({ State.reset with cfg := 255 } : State).cfg.toNat = (List.replicate 255 (0 : Byte)).length := by decide
theorem witness_decs : State.reset.mode = .idle ∧ (dec 1 1 0 0).mode ≠ .idle := by decide
theorem witness_decb :
    (dec 1 1 254 0).mode = .dec ∧ (dec 1 1 254 0).cnt ≠ Config.nMax ∧
    (dec 1 1 255 0).mode = .dec ∧ (dec 1 1 255 0).cnt = Config.nMax ∧ State.reset.mode ≠ .dec := by decide
theorem witness_dece_valid :
    (dec 1 7 255 255).mode = .dec ∧ (dec 1 7 255 255).zs = false ∧ (dec 1 7 255 255).ovf = false ∧
    (dec 1 7 255 255).cnt ≠ 0 ∧ (dec 1 7 255 255).cnt = (dec 1 7 255 255).cfg ∧ (dec 1 7 255 255).ck = 7 ∧
    (dec 1 7 1 0).cfg = 0 ∧ (dec 1 7 1 0).cnt ≠ 0 := by decide
theorem witness_dece_invalid :
    ({ dec 0 0 0 5 with zs := true, ovf := true } : State).zs = true ∧
    ({ dec 1 0 0 5 with ovf := true } : State).zs = false ∧ ({ dec 1 0 0 5 with ovf := true } : State).ovf = true ∧
    (dec 5 5 0 5).cnt = 0 ∧ (dec 5 5 0 5).zs = false ∧ (dec 5 5 0 5).ovf = false ∧
    (dec 5 5 1 5).cnt ≠ 0 ∧ (dec 5 5 1 5).cfg ≠ 0 ∧ (dec 5 5 1 5).cnt ≠ (dec 5 5 1 5).cfg ∧
    (dec 5 5 1 1).cnt = (dec 5 5 1 1).cfg ∧ (dec 5 5 1 1).ck ≠ 6 ∧ State.reset.mode ≠ .dec := by decide
theorem witness_dec1 : State.reset.mode = .idle ∧ (enc 1 1 0 0).mode ≠ .idle := by decide
theorem witness_rdpay :
    valid2.res = .valid ∧ (1 : Byte) < valid2.plen ∧ readByte valid2.pbuf (1 : Byte).toNat = some 0x00 ∧
    State.reset.res ≠ .valid ∧ valid2.plen ≤ 2 := by decide
set_option maxRecDepth 10000 in
theorem witness_streamed_decode :
    State.reset.mode = .idle ∧ State.reset.cfg = 0 ∧ 3 ≤ ([1, 0xaf, 0x28] : List Byte).length ∧
    decodeFrame [1, 0xaf, 0x28] = some [0] ∧ decodeFrame [1, 0xaf, 0x29] = none ∧ decodeFrame [0, 0, 0] = none ∧
    (List.replicate 257 (1 : Byte)).length ≤ 257 ∧ ([0] : List Byte).length = 1 ∧ ([5, 5] : List Byte).length = 2 ∧
    257 < (List.replicate 258 (1 : Byte)).length := by decide
set_option maxRecDepth 10000 in
theorem witness_round_trip :
    State.reset.mode = .idle ∧ (0xff : Byte) ≠ 0 ∧ 1 ≤ ([0xb8] : List Byte).length ∧ ([0xb8] : List Byte).length ≤ 255 ∧
    State.reset.cfg = 0 ∧ ({ State.reset with cfg := 255 } : State).mode = .idle ∧
    (List.replicate 255 (0xb8 : Byte)).length ≤ 255 ∧
    ({ State.reset with cfg := 255 } : State).cfg.toNat = (List.replicate 255 (0xb8 : Byte)).length := by decide
theorem witness_single_byte_error :
    2 < (encodeFrame 1 [0]).length ∧ (1 : Byte) ≠ 0 ∧ 1 ≤ ([0] : List Byte).length ∧ State.reset.cfg = 0 := by decide
theorem witness_zero_seed : State.reset.mode = .idle ∧ 1 ≤ ([0] : List Byte).length := by decide
theorem witness_cfgw :
    State.reset.mode = .idle ∧ (enc 1 1 0 0).mode ≠ .idle ∧ (2 : Byte) ≤ 2 ∧ (2 : Byte) < 3 := by decide
theorem witness_rdreg : (0x0A : Byte) ≤ 0x0A ∧ (0x0A : Byte) ≤ 0xFF := by decide
theorem witness_idempotent :
    (∃ t, exec (.rdreg 0x0a) State.reset = .next t) ∧ ∃ t, exec (.rdpay 0) valid2 = .next t := ⟨⟨_, rfl⟩, _, rfl⟩
theorem witness_mode_transition :
    (∃ t, exec (.encs 1) State.reset = .next t ∧ t.mode ≠ State.reset.mode) ∧ (1 : Byte) ≠ 0 ∧
    (enc 1 1 1 0).mode = .enc ∧ (enc 1 1 1 0).cnt ≠ 0 ∧ (enc 1 1 1 0).cfg = 0 ∧
    (enc 1 1 255 255).cnt = (enc 1 1 255 255).cfg ∧ (dec 1 1 0 0).mode = .dec :=
  ⟨⟨_, rfl, by decide⟩, by decide, rfl, by decide, rfl, rfl, rfl⟩
theorem witness_writers : ∃ t, exec (.map 1) valid2 = .next t ∧ (Instr.map 1).mnemonic ≠ "DECB" := ⟨_, rfl, by decide⟩
theorem witness_old_payload : State.reset.res ≠ .valid ∧ State.reset.mode ≠ .dec ∧ (enc 1 1 0 0).mode ≠ .dec := by decide
theorem witness_coherent : Coherent valid2 ∧ ∃ t, step valid2 = .next t := by
  refine ⟨?_, _, rfl⟩
  constructor <;> decide
theorem witness_decode_content :
    DecodeInProgress { dec 0x68 0x9b 1 0 with pbuf := [(0, 0xb8)] } ∧
    ∃ t, step { dec 0x68 0x9b 1 0 with pbuf := [(0, 0xb8)] } = .next t := by
  refine ⟨fun _ => ⟨0xd0, [0xb8], by decide, by decide, by decide, by decide, ?_⟩, _, rfl⟩
  decide
theorem witness_capacity :
    (2 : Byte) ≠ 0 ∧ CoherentAt 2 { enc 0xf8 0x63 2 0 with pbuf := [(0, 0)] } ∧
    CoherentAt 2 { dec 0xf8 0x63 2 0 with pbuf := [(0, 0), (1, 0)] } ∧ CoherentAt 2 State.reset := by
  refine ⟨by decide, ?_, ?_, ?_⟩ <;> constructor <;> decide
theorem witness_step_runs :
    ({ State.reset with inputs := [Pins.command 0x40a5], rsp := some 7 } : State).inputs = Pins.command 0x40a5 :: [] ∧
    decode (Pins.command 0x40a5).cmdData = .ok (.map 0xa5) ∧ (Pins.command 0x40a5).rst = false ∧
    (Pins.command 0x40a5).cmdValid = true ∧ (Pins.command 0x40a5).rspReady = true ∧ State.reset.rsp = none := by decide
theorem witness_held_edges :
    ({ State.reset with inputs := [Pins.quiet], rsp := some 7 } : State).inputs = Pins.quiet :: [] ∧
    Pins.quiet.rst = false ∧ Pins.quiet.rspReady = false ∧ Pins.quiet.cmdValid = false ∧ Pins.collect.rspReady = true ∧
    Pins.collect.cmdValid = false ∧ State.reset.inputs = [] := by decide
theorem witness_reset_edge :
    ({ State.reset with inputs := [⟨true, true, 0, true⟩] } : State).inputs = (⟨true, true, 0, true⟩ : Pins) :: [] := by decide
theorem witness_command_sequence : State.reset.rsp = none := by decide
theorem witness_lines :
    Line.wellFormed ⟨"SSTEP", some 1⟩ = true ∧ Line.wellFormed ⟨"NOP", none⟩ = true ∧
    Line.wellFormed ⟨"SSTEP", some 2⟩ = false := by decide

end Sys2Proof.Tests
end

section
/-! PROOFS. What each command that can be rejected does, said once: its next state in each branch of its rule (spec
41_frame_encode.md, 42_frame_decode.md, 44_control.md). The capacity `n` is R7's N_MAX. -/

namespace Sys2Proof.Machine

variable {n d : Byte} {s t : State}

/-- What a command guarded by `requireMode` does, in both directions. -/
theorem requireMode_next {m : Mode} {k : Out} :
    requireMode m s k = .next t ↔ (s.mode ≠ m ∧ t = s.rejected .seq) ∨ (s.mode = m ∧ k = .next t) := by
  by_cases hm : s.mode = m
  · simp [requireMode_of_eq k hm, hm]
  · simp [requireMode_of_ne k hm, hm, eq_comm]

/-- When CFG demands another length than CNT (R122, R142). -/
theorem lengthWrong_iff : lengthWrong s = true ↔ s.cfg ≠ 0 ∧ s.cnt ≠ s.cfg := by
  simp [lengthWrong]

/-- ENCS (R120). -/
theorem execEncs_next :
    execEncs d s = .next t ↔
      (s.mode ≠ .idle ∧ t = s.rejected .seq) ∨
      (s.mode = .idle ∧ d = 0 ∧ t = s.rejected .seed0) ∨
      (s.mode = .idle ∧ d ≠ 0 ∧
        t = State.respond { s.loadSeed d with zs := false, ovf := false, mode := .enc } (emitWord .seed d)) := by
  rw [execEncs, requireMode_next]
  by_cases hd : d = 0
  · simp only [if_pos hd, raise_next]; tauto
  · simp only [if_neg hd, emit_next]; tauto

/-- ENCB (R121). -/
theorem encbAt_next :
    encbAt n d s = .next t ↔
      (s.mode ≠ .enc ∧ t = s.rejected .seq) ∨
      (s.mode = .enc ∧ s.cnt = n ∧ t = s.rejected .overflow) ∨
      (s.mode = .enc ∧ s.cnt ≠ n ∧
        t = (s.absorb (ksNext s.ks) (chk8 s.ck d)).respond (emitWord .data (d ^^^ ksNext s.ks))) := by
  rw [encbAt, requireMode_next]
  by_cases hn : s.cnt = n
  · simp only [if_pos hn, raise_next]; tauto
  · simp only [if_neg hn, emit_next]; tauto

/-- ENCE (R122). -/
theorem execEnce_next :
    execEnce s = .next t ↔
      (s.mode ≠ .enc ∧ t = s.rejected .seq) ∨
      (s.mode = .enc ∧ s.cnt = 0 ∧ t = s.rejected .empty) ∨
      (s.mode = .enc ∧ s.cnt ≠ 0 ∧ lengthWrong s = true ∧ t = s.rejected .length) ∨
      (s.mode = .enc ∧ s.cnt ≠ 0 ∧ lengthWrong s = false ∧
        t = State.respond { s with mode := .idle } (emitWord .check s.ck)) := by
  rw [execEnce, requireMode_next]
  by_cases h0 : s.cnt = 0
  · simp only [if_pos h0, raise_next]; tauto
  · cases hl : lengthWrong s
    · simp only [if_neg h0, Bool.false_eq_true, if_false, emit_next]; tauto
    · simp only [if_neg h0, if_true, raise_next, Bool.true_eq_false]; tauto

/-- DECS (R140). -/
theorem execDecs_next :
    execDecs d s = .next t ↔
      (s.mode ≠ .idle ∧ t = s.rejected .seq) ∨
      (s.mode = .idle ∧
        t = State.respond { (s.loadSeed d).setResult .noResult .noReason 0 with zs := d == 0, ovf := false, mode := .dec }
          emptyWord) := by
  rw [execDecs, requireMode_next, emitNone_next]

/-- DECB (R141): the byte is stored where the store succeeds. -/
theorem decbAt_next :
    decbAt n d s = .next t ↔
      (s.mode ≠ .dec ∧ t = s.rejected .seq) ∨
      (s.mode = .dec ∧ s.cnt = n ∧ t = State.respond { s with ovf := true } emptyWord) ∨
      (s.mode = .dec ∧ s.cnt ≠ n ∧ ∃ u, storePayload n s.cnt (d ^^^ ksNext s.ks) s = .ok u ∧
        t = (u.absorb (ksNext s.ks) (chk8 s.ck (d ^^^ ksNext s.ks))).respond emptyWord) := by
  rw [decbAt, requireMode_next]
  by_cases hn : s.cnt = n
  · simp only [if_pos hn, emitNone_next]; tauto
  · rw [if_neg hn]
    cases storePayload n s.cnt (d ^^^ ksNext s.ks) s with
    | ok u => simp [hn, emitNone_next]
    | error f => simp [hn]

/-- DECE (R142). -/
theorem execDece_next :
    execDece d s = .next t ↔
      (s.mode ≠ .dec ∧ t = s.rejected .seq) ∨
      (s.mode = .dec ∧
        t = (endFrame (decodeReason d s) s).respond (emitWord .rslt ((decodeReason d s).code.setWidth 8))) := by
  rw [execDece, requireMode_next, emit_next]

/-- DEC1 (R143). -/
theorem execDec1_next :
    execDec1 d s = .next t ↔
      (s.mode ≠ .idle ∧ t = s.rejected .seq) ∨
      (s.mode = .idle ∧
        t = (s.clearCounts.setResult .invalid .short 0).respond (emitWord .rslt (Rsn.short.code.setWidth 8))) := by
  rw [execDec1, requireMode_next, emit_next]

/-- CFGW (R194). -/
theorem cfgwAt_next :
    cfgwAt n d s = .next t ↔
      (s.mode ≠ .idle ∧ t = s.rejected .seq) ∨
      (s.mode = .idle ∧ d ≤ n ∧ t = State.respond { s with cfg := d } emptyWord) ∨
      (s.mode = .idle ∧ ¬ d ≤ n ∧ t = s.rejected .range) := by
  rw [cfgwAt, requireMode_next]
  by_cases hd : d ≤ n
  · simp [lengthInRange, hd, emitNone_next]
  · simp [lengthInRange, hd, raise_next]

/-- RDREG (R195). -/
theorem rdregAt_next :
    rdregAt n d s = .next t ↔
      (∃ v, readRegister n d s = some v ∧ t = s.respond (emitWord .reg v)) ∨
      (readRegister n d s = none ∧ t = s.rejected .range) := by
  unfold rdregAt
  cases readRegister n d s with
  | some v => simp [emit_next]
  | none => simp [raise_next]

/-- RDPAY (R144): the entry is read where the load succeeds. -/
theorem rdpayAt_next :
    rdpayAt n d s = .next t ↔
      (s.res ≠ .valid ∧ t = s.rejected .notValid) ∨
      (s.res = .valid ∧ ¬ d < s.plen ∧ t = s.rejected .range) ∨
      (s.res = .valid ∧ d < s.plen ∧ ∃ v, loadPayload n d s = .ok v ∧ t = s.respond (emitWord .pay v)) := by
  unfold rdpayAt
  by_cases hr : s.res = .valid
  · by_cases hd : d < s.plen
    · cases loadPayload n d s with
      | ok v => simp [hr, hd, payloadIndexInRange, emit_next]
      | error f => simp [hr, hd, payloadIndexInRange]
    · simp [hr, hd, payloadIndexInRange, raise_next]
  · simp [hr, raise_next]

end Sys2Proof.Machine
end

section
/-! PROOFS. Who writes MODE (spec 10_state.md R16). -/

namespace Sys2Proof.Machine

variable {n d : Byte} {s t : State}

/-- A frame ends in IDLE, whatever its reason (R142). -/
@[simp] theorem endFrame_mode (r : Rsn) (s : State) : (endFrame r s).mode = .idle := by
  cases r <;> rfl

/-- A store into PBUF keeps MODE. -/
theorem storePayload_mode {i v : Byte} (h : storePayload n i v s = .ok t) : t.mode = s.mode := by
  obtain ⟨-, rfl⟩ := storePayload_ok h
  rfl

theorem encbAt_mode (h : encbAt n d s = .next t) : t.mode = s.mode := by
  obtain ⟨-, rfl⟩ | ⟨-, -, rfl⟩ | ⟨-, -, rfl⟩ := encbAt_next.mp h <;> rfl

theorem decbAt_mode (h : decbAt n d s = .next t) : t.mode = s.mode := by
  obtain ⟨-, rfl⟩ | ⟨-, -, rfl⟩ | ⟨-, -, u, hu, rfl⟩ := decbAt_next.mp h
  · rfl
  · rfl
  · rw [State.respond_mode, State.absorb_mode, storePayload_mode hu]

theorem execDec1_mode (h : execDec1 d s = .next t) : t.mode = s.mode := by
  obtain ⟨-, rfl⟩ | ⟨-, rfl⟩ := execDec1_next.mp h <;> rfl

theorem cfgwAt_mode (h : cfgwAt n d s = .next t) : t.mode = s.mode := by
  obtain ⟨-, rfl⟩ | ⟨-, -, rfl⟩ | ⟨-, -, rfl⟩ := cfgwAt_next.mp h <;> rfl

theorem rdregAt_mode (h : rdregAt n d s = .next t) : t.mode = s.mode := by
  obtain ⟨v, -, rfl⟩ | ⟨-, rfl⟩ := rdregAt_next.mp h <;> rfl

theorem rdpayAt_mode (h : rdpayAt n d s = .next t) : t.mode = s.mode := by
  obtain ⟨-, rfl⟩ | ⟨-, -, rfl⟩ | ⟨-, -, v, -, rfl⟩ := rdpayAt_next.mp h <;> rfl

/-- R16: no command but its six writers changes MODE. -/
theorem exec_keeps_mode {i : Instr} (h : exec i s = .next t)
    (hi : i.mnemonic ∉ ["ENCS", "ENCE", "DECS", "DECE", "ABORT", "SRST"]) : t.mode = s.mode := by
  cases i with
  | nop => rw [emitNone_next.mp h, State.respond_mode]
  | clrerr => rw [emitNone_next.mp h, State.respond_mode, State.clearErrors_mode]
  | sset v => rw [emitNone_next.mp h, State.respond_mode]
  | sstep b => rw [emit_next.mp h, State.respond_mode]
  | schk v => rw [emit_next.mp h, State.respond_mode]
  | map v => rw [emit_next.mp h, State.respond_mode]
  | encb v => exact encbAt_mode h
  | decb v => exact decbAt_mode h
  | dec1 v => exact execDec1_mode (d := v) h
  | cfgw v => exact cfgwAt_mode h
  | rdreg v => exact rdregAt_mode h
  | rdpay v => exact rdpayAt_mode h
  | encs _ | ence | decs _ | dece _ | abort | srst => simp [Instr.mnemonic] at hi

/-- Where ENCS changes MODE, it moves IDLE to ENC. -/
theorem execEncs_mode_of_ne (h : execEncs d s = .next t) (hne : t.mode ≠ s.mode) : s.mode = .idle ∧ t.mode = .enc := by
  obtain ⟨-, rfl⟩ | ⟨-, -, rfl⟩ | ⟨hm, -, rfl⟩ := execEncs_next.mp h
  · exact absurd rfl hne
  · exact absurd rfl hne
  · exact ⟨hm, rfl⟩

/-- Where ENCE changes MODE, it moves ENC to IDLE. -/
theorem execEnce_mode_of_ne (h : execEnce s = .next t) (hne : t.mode ≠ s.mode) : s.mode = .enc ∧ t.mode = .idle := by
  obtain ⟨-, rfl⟩ | ⟨-, -, rfl⟩ | ⟨-, -, -, rfl⟩ | ⟨hm, -, -, rfl⟩ := execEnce_next.mp h
  · exact absurd rfl hne
  · exact absurd rfl hne
  · exact absurd rfl hne
  · exact ⟨hm, rfl⟩

/-- Where DECS changes MODE, it moves IDLE to DEC. -/
theorem execDecs_mode_of_ne (h : execDecs d s = .next t) (hne : t.mode ≠ s.mode) : s.mode = .idle ∧ t.mode = .dec := by
  obtain ⟨-, rfl⟩ | ⟨hm, rfl⟩ := execDecs_next.mp h
  · exact absurd rfl hne
  · exact ⟨hm, rfl⟩

/-- Where DECE changes MODE, it moves DEC to IDLE. -/
theorem execDece_mode_of_ne (h : execDece d s = .next t) (hne : t.mode ≠ s.mode) : s.mode = .dec ∧ t.mode = .idle := by
  obtain ⟨-, rfl⟩ | ⟨hm, rfl⟩ := execDece_next.mp h
  · exact absurd rfl hne
  · exact ⟨hm, endFrame_mode _ _⟩

/-- ABORT and SRST reach IDLE from every state (R192, R193). -/
theorem exec_abort_or_srst_mode {i : Instr} (hi : i = .abort ∨ i = .srst) (h : exec i s = .next t) : t.mode = .idle := by
  obtain rfl | rfl := hi
  · rw [emitNone_next.mp h, State.respond_mode]
  · rw [emitNone_next.mp h, State.respond_mode, State.resetRegisters_mode]

/-- R16: every change of MODE is one of its six writers' own. -/
theorem exec_mode_change {i : Instr} (h : exec i s = .next t) (hne : t.mode ≠ s.mode) :
    (i.mnemonic = "ENCS" ∧ s.mode = .idle ∧ t.mode = .enc) ∨ (i = .ence ∧ s.mode = .enc ∧ t.mode = .idle) ∨
    (i.mnemonic = "DECS" ∧ s.mode = .idle ∧ t.mode = .dec) ∨ (i.mnemonic = "DECE" ∧ s.mode = .dec ∧ t.mode = .idle) ∨
    ((i = .abort ∨ i = .srst) ∧ t.mode = .idle) := by
  cases i with
  | encs v => exact .inl ⟨rfl, execEncs_mode_of_ne h hne⟩
  | ence => exact .inr (.inl ⟨rfl, execEnce_mode_of_ne h hne⟩)
  | decs v => exact .inr (.inr (.inl ⟨rfl, execDecs_mode_of_ne h hne⟩))
  | dece v => exact .inr (.inr (.inr (.inl ⟨rfl, execDece_mode_of_ne h hne⟩)))
  | abort => exact .inr (.inr (.inr (.inr ⟨.inl rfl, exec_abort_or_srst_mode (.inl rfl) h⟩)))
  | srst => exact .inr (.inr (.inr (.inr ⟨.inr rfl, exec_abort_or_srst_mode (.inr rfl) h⟩)))
  | nop | clrerr | sset _ | sstep _ | schk _ | encb _ | decb _ | dec1 _ | map _ | cfgw _ | rdreg _ | rdpay _ =>
    exact absurd (exec_keeps_mode h (by simp [Instr.mnemonic])) hne

/-- MODE never holds the code 3 (R16). -/
theorem Mode.code_ne_three (m : Mode) : m.code ≠ 3 := by
  cases m <;> decide

end Sys2Proof.Machine

namespace Sys2Proof.Proofs

open Sys2Proof.Machine

/-- Settles O46: each transition is the accepting branch of its command's rule, and `exec_mode_change` leaves no
other. -/
theorem modeTransitions : Obligations.ModeTransitions := by
  refine ⟨rfl, Mode.code_ne_three, rfl, ?encs, ?ence, ?decs, ?dece, ?toIdle, fun i s t => exec_mode_change⟩
  case encs => exact fun d s hm hd => ⟨_, execEncs_next.mpr (.inr (.inr ⟨hm, hd, rfl⟩)), rfl⟩
  case ence =>
    intro s hm h0 hcfg
    have hl : lengthWrong s = false := by
      rw [Bool.eq_false_iff, ne_eq, lengthWrong_iff]
      exact fun ⟨hz, hc⟩ => hcfg.elim hz hc
    exact ⟨_, execEnce_next.mpr (.inr (.inr (.inr ⟨hm, h0, hl, rfl⟩))), rfl⟩
  case decs => exact fun d s hm => ⟨_, execDecs_next.mpr (.inr ⟨hm, rfl⟩), rfl⟩
  case dece => exact fun d s hm => ⟨_, execDece_next.mpr (.inr ⟨hm, rfl⟩), endFrame_mode _ _⟩
  case toIdle =>
    intro i hi s
    have hi : i = .abort ∨ i = .srst := by simpa using hi
    have hnext : ∃ t, exec i s = .next t := by obtain rfl | rfl := hi <;> exact ⟨_, rfl⟩
    obtain ⟨t, ht⟩ := hnext
    exact ⟨t, ht, exec_abort_or_srst_mode hi ht⟩

end Sys2Proof.Proofs
end

section
/-! PROOFS. The decoder reads a word's high byte against the opcode map and its low byte as the operand (spec
30_encoding.md R60 to R64). -/

namespace Sys2Proof

/-! The mask 0xFF00 covers OP, RZ and SUB, and leaves D -/

theorem opField_and_mask (w : CmdWord) : opField (w &&& 0xFF00) = opField w := by
  rw [opField, BitVec.extractLsb'_and, show (0xFF00 : CmdWord).extractLsb' 12 4 = BitVec.allOnes 4 from rfl,
    BitVec.and_allOnes, opField]

theorem rzField_and_mask (w : CmdWord) : rzField (w &&& 0xFF00) = rzField w := by
  rw [rzField, BitVec.extractLsb'_and, show (0xFF00 : CmdWord).extractLsb' 10 2 = BitVec.allOnes 2 from rfl,
    BitVec.and_allOnes, rzField]

theorem subField_and_mask (w : CmdWord) : subField (w &&& 0xFF00) = subField w := by
  rw [subField, BitVec.extractLsb'_and, show (0xFF00 : CmdWord).extractLsb' 8 2 = BitVec.allOnes 2 from rfl,
    BitVec.and_allOnes, subField]

/-- Bit `i` of the mask (R62). -/
theorem getLsbD_mask {i : Nat} (hi : i < 16) : (0xFF00 : CmdWord).getLsbD i = decide (8 ≤ i) := by
  revert i; decide

/-- The bits under the mask, laid out as R60 has them. -/
theorem and_mask_eq_fields (w : CmdWord) :
    w &&& 0xFF00 = opField w ++ rzField w ++ subField w ++ (0 : Byte) := by
  refine BitVec.eq_of_getLsbD_eq fun i hi => ?_
  rw [BitVec.getLsbD_and, getLsbD_mask hi]
  simp only [opField, rzField, subField, BitVec.getLsbD_append, BitVec.getLsbD_extractLsb']
  grind

/-- A word is its masked bits and its D. -/
theorem and_mask_or_dField (w : CmdWord) : (w &&& 0xFF00) ||| (dField w).setWidth 16 = w := by
  refine BitVec.eq_of_getLsbD_eq fun i hi => ?_
  rw [BitVec.getLsbD_or, BitVec.getLsbD_and, getLsbD_mask hi, BitVec.getLsbD_setWidth, dField,
    BitVec.getLsbD_extractLsb']
  by_cases h8 : 8 ≤ i
  · simp [h8]
  · simp [h8, hi, show i < 8 by omega]

/-- No operand reaches under the mask. -/
theorem setWidth_and_mask (d : Byte) : d.setWidth 16 &&& (0xFF00 : CmdWord) = 0 := by
  refine BitVec.eq_of_getLsbD_eq fun i hi => ?_
  rw [BitVec.getLsbD_and, getLsbD_mask hi, BitVec.getLsbD_setWidth]
  by_cases h8 : 8 ≤ i
  · simp [BitVec.getLsbD_of_ge d i h8]
  · simp [h8]

/-- The words that match `m` are `m | D`, one for each D (R62). -/
theorem and_mask_eq_iff {m : CmdWord} (hm : m &&& 0xFF00 = m) (w : CmdWord) :
    w &&& 0xFF00 = m ↔ ∃ d : Byte, w = m ||| d.setWidth 16 := by
  constructor
  · rintro rfl
    exact ⟨dField w, (and_mask_or_dField w).symm⟩
  · rintro ⟨d, rfl⟩
    rw [BitVec.and_or_distrib_right, setWidth_and_mask, hm]
    exact BitVec.or_zero

/-! The decoder and the rows -/

/-- What `selectCommand` gives: a command whose `match` holds the pair (OP, SUB) and 0 elsewhere (R62). -/
theorem selectCommand_ok {op sub : Nat} {d : Byte} {i : Instr} (h : selectCommand op sub d = .ok i) :
    i.matchBits = BitVec.ofNat 4 op ++ (0 : BitVec 2) ++ BitVec.ofNat 2 sub ++ (0 : Byte) := by
  unfold selectCommand at h
  split at h
  case h_19 => split at h <;> cases h
  all_goals cases h; rfl

/-- A word that decodes has RZ = 0, and (OP, SUB) selects its command (R64). -/
theorem decode_ok {w : CmdWord} {i : Instr} :
    decode w = .ok i ↔ rzField w = 0 ∧ selectCommand (opField w).toNat (subField w).toNat (dField w) = .ok i := by
  unfold decode
  split
  next h => simp [h]
  next h => exact ⟨nofun, fun hw => absurd hw.1 h⟩

/-- A word that decodes matches its command's `match` under the mask (R62). -/
theorem and_mask_of_decode_ok {w : CmdWord} {i : Instr} (h : decode w = .ok i) : w &&& 0xFF00 = i.matchBits := by
  obtain ⟨hrz, hsel⟩ := decode_ok.mp h
  rw [and_mask_eq_fields, hrz, selectCommand_ok hsel, BitVec.ofNat_toNat, BitVec.ofNat_toNat, BitVec.setWidth_eq,
    BitVec.setWidth_eq]

/-- Every command's row stands in the map. -/
theorem row_mem_opcodeTable (i : Instr) : ⟨i.mnemonic, i.matchBits, 0xFF00⟩ ∈ opcodeTable := by
  cases i <;> simp [opcodeTable, Instr.mnemonic, Instr.matchBits]

/-- Every row masks OP, RZ and SUB, has 0 in D and in RZ, and no two rows have the same `match`. -/
theorem opcodeTable_matchBits :
    (∀ r ∈ opcodeTable, r.maskBits = 0xFF00 ∧ r.matchBits &&& 0xFF00 = r.matchBits ∧ rzField r.matchBits = 0) ∧
    opcodeTable.Pairwise (fun r r' => r.matchBits ≠ r'.matchBits) := by
  decide

/-- (OP, SUB) of a row selects the row's command, with any operand. -/
theorem selectCommand_of_mem_opcodeTable {r : OpcodeRow} (hr : r ∈ opcodeTable) (d : Byte) :
    ∃ i, selectCommand (opField r.matchBits).toNat (subField r.matchBits).toNat d = .ok i ∧
      i.mnemonic = r.mnemonic := by
  simp only [opcodeTable, List.mem_cons, List.not_mem_nil, or_false] at hr
  obtain rfl | rfl | rfl | rfl | rfl | rfl | rfl | rfl | rfl | rfl | rfl | rfl | rfl | rfl | rfl | rfl | rfl | rfl :=
    hr
  all_goals exact ⟨_, rfl, rfl⟩

/-- A word that matches a row decodes to the row's command (R62, R64). -/
theorem decode_of_mem_opcodeTable {r : OpcodeRow} {w : CmdWord} (hr : r ∈ opcodeTable)
    (hw : w &&& r.maskBits = r.matchBits) : ∃ i, decode w = .ok i ∧ i.mnemonic = r.mnemonic := by
  obtain ⟨hmask, -, hrz⟩ := opcodeTable_matchBits.1 r hr
  obtain ⟨i, hsel, hname⟩ := selectCommand_of_mem_opcodeTable hr (dField w)
  rw [hmask] at hw
  rw [← hw, opField_and_mask, subField_and_mask] at hsel
  rw [← hw, rzField_and_mask] at hrz
  exact ⟨i, decode_ok.mpr ⟨hrz, hsel⟩, hname⟩

end Sys2Proof

namespace Sys2Proof.Proofs

/-- Settles O3: under the mask a word is its OP, RZ and SUB fields, which are all that the decoder selects by, and the
rest of it is D. -/
theorem decodeFollowsOpcodeMap : Obligations.DecodeFollowsOpcodeMap := by
  refine ⟨fun w i h => ?decoded, fun w r hr hw => decode_of_mem_opcodeTable hr hw, rfl, opcodeTable_matchBits.2,
    fun w r hr => ?words⟩
  case decoded => exact ⟨_, row_mem_opcodeTable i, rfl, and_mask_of_decode_ok h⟩
  case words =>
    obtain ⟨hmask, hmatch, -⟩ := opcodeTable_matchBits.1 r hr
    rw [hmask]
    exact and_mask_eq_iff hmatch w

end Sys2Proof.Proofs
end

section
/-! PROOFS. What a command answers (spec 30_encoding.md R70 to R72): every meaning completes with the empty word, an output
word or an error's word, and each of these is well formed. -/

namespace Sys2Proof.Machine

/-! The words -/

@[simp] theorem rspZero_errorWord (e : ErrCode) : rspZero (errorWord e) = 0 := by
  cases e <;> rfl

@[simp] theorem rspTag_errorWord (e : ErrCode) : rspTag (errorWord e) = 0 := by
  cases e <;> rfl

@[simp] theorem rspByte_errorWord (e : ErrCode) : rspByte (errorWord e) = 0 := by
  cases e <;> rfl

@[simp] theorem rspSymHi_errorWord (e : ErrCode) : rspSymHi (errorWord e) = 0 := by
  cases e <;> rfl

@[simp] theorem rspSymLo_errorWord (e : ErrCode) : rspSymLo (errorWord e) = 0 := by
  cases e <;> rfl

/-- The empty word is the word of the code 0. -/
theorem emptyWord_eq_errorWord : emptyWord = errorWord .noError := rfl

/-- The tags that carry symbols are SEED, DATA, CHECK and MAP, told by their codes (R71, R72). -/
theorem Tag.code_mem_iff (t : Tag) :
    t.code ∈ [Tag.seed.code, Tag.data.code, Tag.check.code, Tag.map.code] ↔ t.carriesSymbols = true := by
  cases t <;> decide

/-- R70, R72: how the fields of a response word depend on one another. -/
def WellFormedResponse (w : RspWord) : Prop :=
  rspZero w = 0 ∧
  (rspCode w ≠ 0 → w = (rspCode w).setWidth 32) ∧
  (rspOv w = false → rspTag w = 0 ∧ rspByte w = 0) ∧
  (rspSv w = true ↔ rspOv w = true ∧ rspTag w ∈ [Tag.seed.code, Tag.data.code, Tag.check.code, Tag.map.code]) ∧
  (rspSv w = false → rspSymHi w = 0 ∧ rspSymLo w = 0) ∧
  (rspSv w = true → rspSymHi w = (rspByte w).extractLsb' 4 4 ∧ rspSymLo w = (rspByte w).extractLsb' 0 4)

theorem wellFormedResponse_errorWord (e : ErrCode) : WellFormedResponse (errorWord e) := by
  refine ⟨rspZero_errorWord e, fun _ => ?code, ?_⟩
  case code => rw [rspCode_errorWord, errorWord]
  simp

theorem wellFormedResponse_emitWord (t : Tag) (b : Byte) : WellFormedResponse (emitWord t b) := by
  refine ⟨rspZero_emitWord t b, fun hc => absurd (rspCode_emitWord t b) hc, ?ov, ?sv, ?noSymbols, ?symbols⟩
  case ov => simp
  case sv => rw [rspSv_emitWord, rspOv_emitWord, rspTag_emitWord, Tag.code_mem_iff, eq_self, true_and]
  case noSymbols =>
    intro h
    rw [rspSv_emitWord] at h
    simp [h]
  case symbols =>
    intro h
    rw [rspSv_emitWord] at h
    simp [h, highNibble, lowNibble]

/-! The outcomes -/

/-- The words a command can answer. -/
inductive IsResponse : RspWord → Prop where
  | empty : IsResponse emptyWord
  | output (t : Tag) (b : Byte) : IsResponse (emitWord t b)
  | error (e : ErrCode) : IsResponse (errorWord e)

theorem IsResponse.wellFormed {w : RspWord} (h : IsResponse w) : WellFormedResponse w := by
  cases h with
  | empty => exact emptyWord_eq_errorWord ▸ wellFormedResponse_errorWord .noError
  | output t b => exact wellFormedResponse_emitWord t b
  | error e => exact wellFormedResponse_errorWord e

/-- The outcome is a next state that holds a response. -/
def Answers (o : Out) : Prop := ∃ t w, o = .next t ∧ t.rsp = some w ∧ IsResponse w

section
variable (s : State)

theorem emitNone_answers : Answers (emitNone s) := ⟨_, _, rfl, rfl, .empty⟩

theorem emit_answers (t : Tag) (b : Byte) : Answers (emit t b s) := ⟨_, _, rfl, rfl, .output t b⟩

theorem raise_answers (e : ErrCode) : Answers (raise e s) := ⟨_, _, rfl, rfl, .error e⟩

/-- A guarded command completes where the command does in the required MODE. -/
theorem requireMode_answers {m : Mode} {k : Out} (h : Answers k) : Answers (requireMode m s k) := by
  by_cases hm : s.mode = m
  · rwa [requireMode_of_eq k hm]
  · rw [requireMode_of_ne k hm]
    exact raise_answers s .seq

theorem execEncs_answers (d : Byte) : Answers (execEncs d s) := by
  apply requireMode_answers
  split
  · exact raise_answers s .seed0
  · exact emit_answers _ .seed d

theorem execEncb_answers (d : Byte) : Answers (execEncb d s) := by
  apply requireMode_answers
  split
  · exact raise_answers s .overflow
  · exact emit_answers _ .data _

theorem execEnce_answers : Answers (execEnce s) := by
  apply requireMode_answers
  split
  · exact raise_answers s .empty
  · split
    · exact raise_answers s .length
    · exact emit_answers _ .check s.ck

/-- DECB never leaves PBUF: it stores only at a CNT other than N_MAX. -/
theorem execDecb_answers (d : Byte) : Answers (execDecb d s) := by
  apply requireMode_answers
  split
  · exact emitNone_answers _
  · rw [decbAt_nMax_ok _ ‹_›]
    exact emitNone_answers _

theorem execCfgw_answers (d : Byte) : Answers (execCfgw d s) := by
  apply requireMode_answers
  split
  · exact emitNone_answers _
  · exact raise_answers s .range

theorem execRdreg_answers (d : Byte) : Answers (execRdreg d s) := by
  unfold execRdreg rdregAt
  split
  · exact emit_answers s .reg _
  · exact raise_answers s .range

/-- RDPAY never leaves PBUF: it reads only below PLEN. -/
theorem execRdpay_answers (d : Byte) : Answers (execRdpay d s) := by
  unfold execRdpay rdpayAt
  split
  · split
    next hd =>
      rw [rdpayAt_nMax_ok (of_decide_eq_true hd)]
      exact emit_answers s .pay _
    next => exact raise_answers s .range
  · exact raise_answers s .notValid

/-- Every command completes with one response (R31, R211). -/
theorem exec_answers (i : Instr) : Answers (exec i s) := by
  cases i with
  | nop | clrerr | abort | srst | sset _ => exact emitNone_answers _
  | sstep _ | schk _ => exact emit_answers _ .prim _
  | map d => exact emit_answers s .map d
  | encs d => exact execEncs_answers s d
  | encb d => exact execEncb_answers s d
  | ence => exact execEnce_answers s
  | decs _ => exact requireMode_answers s (emitNone_answers _)
  | decb d => exact execDecb_answers s d
  | dece _ | dec1 _ => exact requireMode_answers s (emit_answers _ .rslt _)
  | cfgw d => exact execCfgw_answers s d
  | rdreg d => exact execRdreg_answers s d
  | rdpay d => exact execRdpay_answers s d

end

end Sys2Proof.Machine

namespace Sys2Proof.Proofs

open Sys2Proof.Machine

/-- Settles O14: every command answers one of three kinds of word (`exec_answers`), each well formed. -/
theorem everyCommandAnswersAWellFormedResponse : Obligations.EveryCommandAnswersAWellFormedResponse := by
  intro i s
  obtain ⟨t, w, hnext, hrsp, hw⟩ := exec_answers s i
  exact ⟨t, w, hnext, hrsp, hw.wellFormed⟩

end Sys2Proof.Proofs
end

section
/-! PROOFS. The scrambler's combinational functions (spec 40_scrambler.md R100 to R104). All are linear over GF(2), and a byte
absorbed into a state equal to it shifts out with no feedback; so absorbing `d` into `s` is eight steps of `s ^ d`. -/

namespace Sys2Proof.Machine

/-! A byte from its bits -/

/-- A byte is `byteOfBits` of its own bits. -/
theorem byteOfBits_getLsbD (x : Byte) :
    byteOfBits (x.getLsbD 7) (x.getLsbD 6) (x.getLsbD 5) (x.getLsbD 4) (x.getLsbD 3) (x.getLsbD 2) (x.getLsbD 1)
      (x.getLsbD 0) = x := by
  refine BitVec.eq_of_getLsbD_eq fun i hi => ?_
  simp only [byteOfBits, BitVec.getLsbD_append, BitVec.getLsbD_ofBool]
  interval_cases i <;> simp

theorem byteOfBits_xor (a7 a6 a5 a4 a3 a2 a1 a0 b7 b6 b5 b4 b3 b2 b1 b0 : Bool) :
    byteOfBits (a7 ^^ b7) (a6 ^^ b6) (a5 ^^ b5) (a4 ^^ b4) (a3 ^^ b3) (a2 ^^ b2) (a1 ^^ b1) (a0 ^^ b0) =
      byteOfBits a7 a6 a5 a4 a3 a2 a1 a0 ^^^ byteOfBits b7 b6 b5 b4 b3 b2 b1 b0 := by
  simp only [byteOfBits, ← BitVec.ofBool_xor_ofBool, ← BitVec.xor_append]

/-- A GF(2)-linear function of a byte is settled by its values on the unit vectors. -/
theorem eq_of_linear_of_twoPow {f g : Byte → Byte} (hf : ∀ a b, f (a ^^^ b) = f a ^^^ f b)
    (hg : ∀ a b, g (a ^^^ b) = g a ^^^ g b) (hunit : ∀ i < 8, f (BitVec.twoPow 8 i) = g (BitVec.twoPow 8 i)) (x : Byte) :
    f x = g x := by
  have hbelow : ∀ n ≤ 8, ∀ y : Byte, (∀ i, n ≤ i → y.getLsbD i = false) → f y = g y := by
    intro n
    induction n with
    | zero =>
      intro _ y hy
      have hzero : y = 0 ^^^ 0 := BitVec.eq_of_getLsbD_eq fun i _ => by simp [hy i]
      rw [hzero, hf, hg, BitVec.xor_self, BitVec.xor_self]
    | succ n ih =>
      intro hn y hy
      cases hbit : y.getLsbD n with
      | false => exact ih (by omega) y fun i hi => by grind
      | true =>
        have hrest : f (y ^^^ BitVec.twoPow 8 n) = g (y ^^^ BitVec.twoPow 8 n) :=
          ih (by omega) _ fun i hi => by
            rw [BitVec.getLsbD_xor, BitVec.getLsbD_twoPow]
            grind
        rw [hf, hg, hunit n hn] at hrest
        exact (BitVec.xor_left_inj _).mp hrest
  exact hbelow 8 le_rfl x fun i hi => BitVec.getLsbD_of_ge x i hi

/-! One step (R100) -/

/-- Bit `i` after a step: the bit above it, and the feedback where the constant has a 1. -/
theorem getLsbD_lfsrStep (s : Byte) (b : Bool) (i : Nat) :
    (lfsrStep s b).getLsbD i = (s.getLsbD (i + 1) ^^ ((s.getLsbD 0 ^^ b) && Config.poly.getLsbD i)) := by
  rw [lfsrStep, Nat.add_comm]
  split
  next hf => rw [hf, BitVec.getLsbD_xor, BitVec.getLsbD_ushiftRight, Bool.true_and]
  next hf => rw [Bool.eq_false_iff.mpr hf, BitVec.getLsbD_ushiftRight, Bool.false_and, Bool.xor_false]

/-- The step's condition is that `s[0]` and `b` differ. -/
theorem lfsrStep_eq_ite (s : Byte) (b : Bool) :
    lfsrStep s b = if s.getLsbD 0 ≠ b then (s >>> 1) ^^^ 0xAF else s >>> 1 := by
  simp only [lfsrStep, Config.poly, bne_iff_ne]

theorem lfsrStep_eq_stepNetwork (s : Byte) (b : Bool) : lfsrStep s b = stepNetwork s b := by
  rw [← byteOfBits_getLsbD (lfsrStep s b)]
  have habove : s.getLsbD 8 = false := BitVec.getLsbD_of_ge s 8 le_rfl
  simp only [getLsbD_lfsrStep, habove, stepNetwork, Config.poly]
  simp

theorem lfsrStep_xor (s t : Byte) (b c : Bool) : lfsrStep (s ^^^ t) (b ^^ c) = lfsrStep s b ^^^ lfsrStep t c := by
  refine BitVec.eq_of_getLsbD_eq fun i _ => ?_
  simp only [getLsbD_lfsrStep, BitVec.getLsbD_xor, Bool.and_xor_distrib_right, Bool.xor_assoc, Bool.xor_left_comm]

/-- The byte shifted `i` times, stepped with its own bit `i`, shifts once more: the bits cancel and nothing feeds back. -/
theorem lfsrStep_ushiftRight (d : Byte) (i : Nat) : lfsrStep (d >>> i) (d.getLsbD i) = d >>> (i + 1) := by
  rw [lfsrStep_eq_ite, BitVec.getLsbD_ushiftRight, Nat.add_zero, if_neg (not_not_intro rfl), BitVec.shiftRight_add]

/-! Eight steps (R102 to R104) -/

theorem chk8_xor (s t d e : Byte) : chk8 (s ^^^ t) (d ^^^ e) = chk8 s d ^^^ chk8 t e := by
  simp only [chk8, List.foldl_cons, List.foldl_nil, BitVec.getLsbD_xor, lfsrStep_xor]

/-- Absorbing a byte equal to the state shifts all of it out. -/
theorem chk8_self (d : Byte) : chk8 d d = 0 := by
  have hfirst : lfsrStep d (d.getLsbD 0) = d >>> 1 := lfsrStep_ushiftRight d 0
  simp only [chk8, List.foldl_cons, List.foldl_nil, hfirst, lfsrStep_ushiftRight]
  exact BitVec.ushiftRight_eq_zero le_rfl

theorem chk8_zero (x : Byte) : chk8 x 0#8 = eightSteps x := by
  simp [chk8, eightSteps, ksNext]

/-- R104: absorbing `d` bit by bit is the eight steps of `s ^ d`. -/
theorem chk8_eq_eightSteps (s d : Byte) : chk8 s d = eightSteps (s ^^^ d) := by
  calc chk8 s d = chk8 ((s ^^^ d) ^^^ d) (0#8 ^^^ d) := by simp
    _ = chk8 (s ^^^ d) 0#8 ^^^ chk8 d d := chk8_xor _ _ _ _
    _ = eightSteps (s ^^^ d) := by simp [chk8_self, chk8_zero]

theorem eightSteps_xor (a b : Byte) : eightSteps (a ^^^ b) = eightSteps a ^^^ eightSteps b := by
  rw [← chk8_zero, ← chk8_zero, ← chk8_zero, ← chk8_xor, BitVec.xor_self]

theorem checksumNetwork_xor (a b : Byte) : checksumNetwork (a ^^^ b) = checksumNetwork a ^^^ checksumNetwork b := by
  rw [checksumNetwork, checksumNetwork, checksumNetwork, ← byteOfBits_xor]
  have : Std.Commutative Bool.xor := ⟨Bool.xor_comm⟩
  congr 1 <;> simp only [BitVec.getLsbD_xor] <;> ac_rfl

/-- R102: both are linear, and agree on the unit vectors. -/
theorem eightSteps_eq_checksumNetwork (x : Byte) : eightSteps x = checksumNetwork x :=
  eq_of_linear_of_twoPow eightSteps_xor checksumNetwork_xor (by decide) x

theorem chk8_eq_checksumNetwork (s d : Byte) : chk8 s d = checksumNetwork (s ^^^ d) := by
  rw [chk8_eq_eightSteps, eightSteps_eq_checksumNetwork]

end Sys2Proof.Machine

namespace Sys2Proof.Proofs

open Sys2Proof.Machine

/-- Settles O7, from what a step does to each bit (`getLsbD_lfsrStep`). -/
theorem stepMatchesBitEquations : Obligations.StepMatchesBitEquations :=
  fun s b => ⟨lfsrStep_eq_ite s b, lfsrStep_eq_stepNetwork s b⟩

end Sys2Proof.Proofs
end

section
/-! PROOFS. The commands on the standalone scrambler (spec 40_scrambler.md R107 to R109): the words that select each, and
its whole next state. -/

namespace Sys2Proof.Machine

/-- Words select a command exactly by their masked bits when the command's `match` is those bits and (OP, SUB) in them
selects it (R62, R64). -/
theorem selectedBy_of_selectCommand {m : CmdWord} {f : Byte → Instr} (hmatch : ∀ d, (f d).matchBits = m)
    (hrz : rzField m = 0) (hsel : ∀ d, selectCommand (opField m).toNat (subField m).toNat d = .ok (f d)) :
    SelectedBy m f := by
  intro w
  constructor
  · intro h
    rw [and_mask_of_decode_ok h, hmatch]
  · rintro rfl
    rw [rzField_and_mask] at hrz
    simp only [opField_and_mask, subField_and_mask] at hsel
    exact decode_ok.mpr ⟨hrz, hsel (dField w)⟩

/-- SR takes the value, the PRIM response carries it, and nothing else changes (R108, R109). -/
theorem updateSr_eq (v : Byte) (s : State) :
    updateSr v s = .next { s with sr := v, rsp := some (emitWord .prim v) } :=
  emit_eq .prim v { s with sr := v }

theorem exec_sset (d : Byte) (s : State) : exec (.sset d) s = .next { s with sr := d, rsp := some emptyWord } :=
  emitNone_eq { s with sr := d }

theorem exec_sstep (b : Bool) (s : State) : exec (.sstep b) s = updateSr (lfsrStep s.sr b) s := rfl

theorem exec_schk (d : Byte) (s : State) : exec (.schk d) s = updateSr (chk8 s.sr d) s := rfl

end Sys2Proof.Machine

namespace Sys2Proof.Proofs

open Sys2Proof.Machine

/-- Settles O20. -/
theorem ssetStoresItsOperand : Obligations.SsetStoresItsOperand := by
  refine ⟨?words, exec_sset⟩
  case words => exact selectedBy_of_selectCommand (fun _ => rfl) rfl (fun _ => rfl)

/-- Settles O21: the emitted value is the new SR, by the step's bit equations. -/
theorem sstepAdvancesSr : Obligations.SstepAdvancesSr := by
  refine ⟨?words, fun b s => ?next⟩
  case words => exact selectedBy_of_selectCommand (fun _ => rfl) rfl (fun _ => rfl)
  case next => rw [exec_sstep, updateSr_eq, lfsrStep_eq_stepNetwork]

/-- Settles O22: the emitted value is the new SR, by the network of R104. -/
theorem schkAbsorbsAByte : Obligations.SchkAbsorbsAByte := by
  refine ⟨?words, fun d s => ?next⟩
  case words => exact selectedBy_of_selectCommand (fun _ => rfl) rfl (fun _ => rfl)
  case next => rw [exec_schk, updateSr_eq, chk8_eq_checksumNetwork]

end Sys2Proof.Proofs
end

section
/-! PROOFS. The frame encoder (spec 41_frame_encode.md R120 to R122): the words that select each command, and its whole next
state in each branch of its rule. -/

namespace Sys2Proof.Machine

/-- When CFG accepts the frame's length (R122, R142). -/
theorem lengthWrong_eq_false_iff {s : State} : lengthWrong s = false ↔ s.cfg = 0 ∨ s.cnt = s.cfg := by
  rw [Bool.eq_false_iff, ne_eq, lengthWrong_iff, Decidable.not_and_iff_or_not, not_not, not_not]

/-- An 8-bit count below this hardware's N_MAX does not wrap (R121). -/
theorem toNat_add_one_of_ne_nMax {c : Byte} (h : c ≠ Config.nMax) : (c + 1).toNat = c.toNat + 1 := by
  have hlt : c < 255#8 := lt_nMax_of_ne h
  bv_omega

end Sys2Proof.Machine

namespace Sys2Proof.Proofs

open Sys2Proof.Machine

/-- Settles O24, each clause by its branch of `execEncs_next`. -/
theorem encsStartsAnEncodeFrame : Obligations.EncsStartsAnEncodeFrame := by
  refine ⟨?words, fun d s hm hd => ?starts, fun d s hm => ?seq, fun s hm => ?seed0⟩
  case words => exact selectedBy_of_selectCommand (fun _ => rfl) rfl (fun _ => rfl)
  case starts => exact execEncs_next.mpr (.inr (.inr ⟨hm, hd, rfl⟩))
  case seq => exact execEncs_next.mpr (.inl ⟨hm, rfl⟩)
  case seed0 => exact execEncs_next.mpr (.inr (.inl ⟨hm, rfl, rfl⟩))

/-- Settles O25, each clause by its branch of `encbAt_next` at this hardware's capacity. -/
theorem encbEncodesOneByte : Obligations.EncbEncodesOneByte := by
  refine ⟨?words, fun d s hm hn => ⟨?encodes, ?counts⟩, fun d s hm => ?seq, fun d s hm hn => ?overflow⟩
  case words => exact selectedBy_of_selectCommand (fun _ => rfl) rfl (fun _ => rfl)
  case encodes => exact encbAt_next.mpr (.inr (.inr ⟨hm, hn, rfl⟩))
  case counts => exact toNat_add_one_of_ne_nMax hn
  case seq => exact encbAt_next.mpr (.inl ⟨hm, rfl⟩)
  case overflow => exact encbAt_next.mpr (.inr (.inl ⟨hm, hn, rfl⟩))

/-- Settles O26, each clause by its branch of `execEnce_next`; CFG's demand is `lengthWrong`. -/
theorem enceEndsAnEncodeFrame : Obligations.EnceEndsAnEncodeFrame := by
  refine ⟨?words, fun s hm h0 hcfg => ?ends, fun s hm => ?seq, fun s hm h0 => ?empty, fun s hm h0 hz hc => ?length⟩
  case words => exact selectedBy_of_selectCommand (fun _ => rfl) rfl (fun _ => rfl)
  case ends => exact execEnce_next.mpr (.inr (.inr (.inr ⟨hm, h0, lengthWrong_eq_false_iff.mpr hcfg, rfl⟩)))
  case seq => exact execEnce_next.mpr (.inl ⟨hm, rfl⟩)
  case empty => exact execEnce_next.mpr (.inr (.inl ⟨hm, h0, rfl⟩))
  case length => exact execEnce_next.mpr (.inr (.inr (.inl ⟨hm, h0, lengthWrong_iff.mpr ⟨hz, hc⟩, rfl⟩)))

end Sys2Proof.Proofs
end

section
/-! PROOFS. The frame decoder (spec 42_frame_decode.md R140 to R144): the words that select each command, and its whole next
state in each branch of its rule. -/

namespace Sys2Proof.Machine

variable {d : Byte} {s : State}

/-! R142's priority: each reason from its own check and the ones before it. -/

theorem decodeReason_of_zs (hz : s.zs = true) : decodeReason d s = .zeroSeed := if_pos hz

theorem decodeReason_of_ovf (hz : s.zs = false) (ho : s.ovf = true) : decodeReason d s = .overflow := by
  simp only [decodeReason, hz, ho, Bool.false_eq_true, if_false, if_true]

theorem decodeReason_of_cnt_eq_zero (hz : s.zs = false) (ho : s.ovf = false) (h0 : s.cnt = 0) :
    decodeReason d s = .empty := by
  simp only [decodeReason, hz, ho, Bool.false_eq_true, if_false, if_pos h0]

theorem decodeReason_of_lengthWrong (hz : s.zs = false) (ho : s.ovf = false) (h0 : s.cnt ≠ 0)
    (hl : lengthWrong s = true) : decodeReason d s = .length := by
  simp only [decodeReason, hz, ho, hl, Bool.false_eq_true, if_false, if_neg h0, if_true]

theorem decodeReason_of_ck_ne (hz : s.zs = false) (ho : s.ovf = false) (h0 : s.cnt ≠ 0)
    (hl : lengthWrong s = false) (hc : s.ck ≠ d) : decodeReason d s = .mismatch := by
  simp only [decodeReason, hz, ho, hl, Bool.false_eq_true, if_false, if_neg h0, if_pos hc]

/-- A frame that passes every check ends VALID, its length in PLEN (R142). -/
theorem exec_dece_of_valid (hm : s.mode = .dec) (hr : decodeReason d s = .noReason) :
    exec (.dece d) s = .next { s with
      res := .valid, rsn := .noReason, plen := s.cnt, mode := .idle, rsp := some (emitWord .rslt 0) } := by
  refine execDece_next.mpr (.inr ⟨hm, ?_⟩)
  rw [hr, endFrame_valid]
  rfl

/-- A frame that fails a check ends INVALID, and the response carries the reason's code (R142). -/
theorem exec_dece_of_invalid {r : Rsn} (hm : s.mode = .dec) (hr : decodeReason d s = r) (hne : r ≠ .noReason) :
    exec (.dece d) s = .next { s with
      res := .invalid, rsn := r, plen := 0, mode := .idle, rsp := some (emitWord .rslt (r.code.setWidth 8)) } := by
  refine execDece_next.mpr (.inr ⟨hm, ?_⟩)
  rw [hr, endFrame_invalid s hne]
  rfl

end Sys2Proof.Machine

namespace Sys2Proof.Proofs

open Sys2Proof.Machine

/-- Settles O28, each clause by its branch of `execDecs_next`. -/
theorem decsStartsADecodeFrame : Obligations.DecsStartsADecodeFrame := by
  refine ⟨?words, fun d s hm => ?starts, fun d s hm => ?seq⟩
  case words => exact selectedBy_of_selectCommand (fun _ => rfl) rfl (fun _ => rfl)
  case starts => exact execDecs_next.mpr (.inr ⟨hm, rfl⟩)
  case seq => exact execDecs_next.mpr (.inl ⟨hm, rfl⟩)

/-- Settles O29, each clause by its branch of `decbAt_next` at this hardware's capacity, where the store succeeds; the new
buffer is the old one with the recovered byte written at CNT. -/
theorem decbDecodesOneByte : Obligations.DecbDecodesOneByte := by
  refine ⟨?words, fun d s hm hn => ?decodes, fun d s hm hn => ?overflow, fun d s hm => ?seq⟩
  case words => exact selectedBy_of_selectCommand (fun _ => rfl) rfl (fun _ => rfl)
  case decodes =>
    refine ⟨writeByte s.pbuf s.cnt.toNat (d ^^^ ksNext s.ks), ?_, readByte_writeByte_same .., fun a ha => ?_⟩
    · exact decbAt_next.mpr (.inr (.inr ⟨hm, hn, _, decbAt_nMax_ok _ hn, rfl⟩))
    · exact readByte_writeByte_other _ _ ha
  case overflow => exact decbAt_next.mpr (.inr (.inl ⟨hm, hn, rfl⟩))
  case seq => exact decbAt_next.mpr (.inl ⟨hm, rfl⟩)

/-- Settles O30: the first failing check gives the reason (`decodeReason_of_…`), and the reason the next state. -/
theorem deceValidatesTheFrame : Obligations.DeceValidatesTheFrame := by
  refine ⟨?words, fun d s hm hz ho h0 hcfg hc => ?valid, fun d s hm hz => ?zeroSeed, fun d s hm hz ho => ?overflow,
    fun d s hm hz ho h0 => ?empty, fun d s hm hz ho h0 hcfg hn => ?length,
    fun d s hm hz ho h0 hcfg hc => ?mismatch, fun d s hm => ?seq⟩
  case words => exact selectedBy_of_selectCommand (fun _ => rfl) rfl (fun _ => rfl)
  case valid => exact exec_dece_of_valid hm (decodeReason_eq_noReason.mpr ⟨hz, ho, h0, hcfg, hc⟩)
  case zeroSeed => exact exec_dece_of_invalid hm (decodeReason_of_zs hz) nofun
  case overflow => exact exec_dece_of_invalid hm (decodeReason_of_ovf hz ho) nofun
  case empty => exact exec_dece_of_invalid hm (decodeReason_of_cnt_eq_zero hz ho h0) nofun
  case length =>
    have hl : lengthWrong s = true := lengthWrong_iff.mpr ⟨hcfg, hn⟩
    exact exec_dece_of_invalid hm (decodeReason_of_lengthWrong hz ho h0 hl) nofun
  case mismatch =>
    have hl : lengthWrong s = false := lengthWrong_eq_false_iff.mpr hcfg
    exact exec_dece_of_invalid hm (decodeReason_of_ck_ne hz ho h0 hl hc) nofun
  case seq => exact execDece_next.mpr (.inl ⟨hm, rfl⟩)

/-- Settles O31, each clause by its branch of `execDec1_next`, which does not name the byte. -/
theorem dec1ReportsAShortFrame : Obligations.Dec1ReportsAShortFrame := by
  refine ⟨?words, fun d s hm => ?short, fun d s hm => ?seq⟩
  case words => exact selectedBy_of_selectCommand (fun _ => rfl) rfl (fun _ => rfl)
  case short => exact (execDec1_next (d := d)).mpr (.inr ⟨hm, rfl⟩)
  case seq => exact (execDec1_next (d := d)).mpr (.inl ⟨hm, rfl⟩)

/-- Settles O32, each clause by its branch of `rdpayAt_next`: an index below PLEN lies in the buffer, and a written entry's
value is the byte written. -/
theorem rdpayReadsTheValidatedPayload : Obligations.RdpayReadsTheValidatedPayload := by
  refine ⟨?words, fun d s hr hd => ?reads, fun d s hr => ?notValid, fun d s hr hd => ?range⟩
  case words => exact selectedBy_of_selectCommand (fun _ => rfl) rfl (fun _ => rfl)
  case reads =>
    refine ⟨payloadValue s d.toNat, ?_, fun u hu => payloadValue_of_written hu⟩
    exact rdpayAt_next.mpr (.inr (.inr ⟨hr, hd, _, rdpayAt_nMax_ok hd, rfl⟩))
  case notValid => exact rdpayAt_next.mpr (.inl ⟨hr, rfl⟩)
  case range => exact rdpayAt_next.mpr (.inr (.inl ⟨hr, BitVec.not_lt.mpr hd, rfl⟩))

end Sys2Proof.Proofs
end

section
/-! PROOFS. The symbol mapper (spec 43_symbol_map.md R171, R172): the words that select MAP, its whole next state and every
field of its response. -/

namespace Sys2Proof.Machine

/-- MAP loads its response and changes no other state, whatever MODE is (R172). -/
theorem exec_map (d : Byte) (s : State) : exec (.map d) s = .next { s with rsp := some (emitWord .map d) } :=
  emit_eq .map d s

/-- A tag that carries symbols answers its byte's high nibble in SYM_HI and its low nibble in SYM_LO (R72, R171). -/
theorem rspSyms_emitWord_of_carriesSymbols {t : Tag} (ht : t.carriesSymbols = true) (b : Byte) :
    rspSymHi (emitWord t b) = highNibble b ∧ rspSymLo (emitWord t b) = lowNibble b := by
  rw [rspSymHi_emitWord, rspSymLo_emitWord, if_pos ht, if_pos ht]
  exact ⟨rfl, rfl⟩

end Sys2Proof.Machine

namespace Sys2Proof.Proofs

open Sys2Proof.Machine

/-- Settles O37: the response is MAP's `emitWord`, read field by field; its symbol pair is the byte's two nibbles. -/
theorem mapAnswersTheSymbolPair : Obligations.MapAnswersTheSymbolPair := by
  refine ⟨?words, fun d s => ⟨emitWord .map d, exec_map d s, rspTag_emitWord .map d, rspOv_emitWord .map d,
    rspSv_emitWord .map d, rspByte_emitWord .map d, rspCode_emitWord .map d, rspZero_emitWord .map d, ?symbols⟩⟩
  case words => exact selectedBy_of_selectCommand (fun _ => rfl) rfl (fun _ => rfl)
  case symbols =>
    obtain ⟨hhi, hlo⟩ := rspSyms_emitWord_of_carriesSymbols (t := .map) rfl d
    exact ⟨congrArg₂ Prod.mk hhi hlo, hhi, hlo⟩

end Sys2Proof.Proofs
end

section
/-! PROOFS. NOP, CLRERR, ABORT, SRST, CFGW and RDREG (spec 44_control.md R190 to R195): the words that select each command,
and its whole next state. -/

namespace Sys2Proof.Machine

variable {d v : Byte} {s : State}

/-! The four commands that no state rejects -/

theorem exec_nop (s : State) : exec .nop s = .next { s with rsp := some emptyWord } := emitNone_eq s

theorem exec_clrerr (s : State) :
    exec .clrerr s = .next { s with errf := false, errc := .noError, rsp := some emptyWord } :=
  emitNone_eq s.clearErrors

theorem exec_abort (s : State) :
    exec .abort s = .next { s with mode := .idle, cnt := 0, zs := false, ovf := false, rsp := some emptyWord } :=
  emitNone_eq { s.clearCounts with mode := .idle }

theorem exec_srst (s : State) : exec .srst s = .next { s.resetRegisters with rsp := some emptyWord } :=
  emitNone_eq s.resetRegisters

/-! CFGW and RDREG at this hardware's capacity -/

theorem exec_cfgw (d : Byte) (s : State) : exec (.cfgw d) s = cfgwAt Config.nMax d s := rfl

theorem exec_rdreg (d : Byte) (s : State) : exec (.rdreg d) s = rdregAt Config.nMax d s := rfl

/-- Every byte is a length this hardware's frames can have, or 0 (R194). -/
theorem le_nMax (d : Byte) : d ≤ Config.nMax := by
  rw [BitVec.le_def]
  exact Nat.le_of_lt_succ d.isLt

/-- The indices from 0x0A name no register (R27). -/
theorem readRegister_eq_none_of_le {n : Byte} (h : 0x0A ≤ d) : readRegister n d s = none := by
  have hle : 10 ≤ d.toNat := BitVec.le_def.mp h
  unfold readRegister
  split
  case h_11 => rfl
  all_goals omega

/-- RDREG of an index that names a register answers its value and changes no other state (R195). -/
theorem exec_rdreg_of_register (h : readRegister Config.nMax d s = some v) :
    exec (.rdreg d) s = .next { s with rsp := some (emitWord .reg v) } :=
  rdregAt_next.mpr (.inl ⟨v, h, rfl⟩)

/-- The register ERRC holds its code in the low nibble, below a zero nibble (R27). -/
theorem ErrCode.code_setWidth (e : ErrCode) : e.code.setWidth 8 = 0#4 ++ e.code := by
  cases e <;> rfl

end Sys2Proof.Machine

namespace Sys2Proof.Proofs

open Sys2Proof.Machine

/-- Settles O39. -/
theorem nopOnlyAnswers : Obligations.NopOnlyAnswers := by
  refine ⟨?words, exec_nop⟩
  case words => exact selectedBy_of_selectCommand (fun _ => rfl) rfl (fun _ => rfl)

/-- Settles O40. -/
theorem clrerrClearsTheErrorRegisters : Obligations.ClrerrClearsTheErrorRegisters := by
  refine ⟨?words, exec_clrerr⟩
  case words => exact selectedBy_of_selectCommand (fun _ => rfl) rfl (fun _ => rfl)

/-- Settles O41. -/
theorem abortAbandonsTheFrame : Obligations.AbortAbandonsTheFrame := by
  refine ⟨?words, exec_abort⟩
  case words => exact selectedBy_of_selectCommand (fun _ => rfl) rfl (fun _ => rfl)

/-- Settles O42: `State.resetRegisters` puts R10's values, which are those of `State.reset`. -/
theorem srstResetsAllButPbuf : Obligations.SrstResetsAllButPbuf := by
  refine ⟨?words, exec_srst⟩
  case words => exact selectedBy_of_selectCommand (fun _ => rfl) rfl (fun _ => rfl)

/-- Settles O43, each clause by its branch of `cfgwAt_next`; at this hardware's capacity every operand is in range. -/
theorem cfgwWritesTheExpectedLength : Obligations.CfgwWritesTheExpectedLength := by
  have writes (n d : Byte) (s : State) (hm : s.mode = .idle) (hd : d ≤ n) :
      cfgwAt n d s = .next { s with cfg := d, rsp := some emptyWord } :=
    cfgwAt_next.mpr (.inr (.inl ⟨hm, hd, rfl⟩))
  have seq (n d : Byte) (s : State) (hm : s.mode ≠ .idle) : cfgwAt n d s = .next (s.rejected .seq) :=
    cfgwAt_next.mpr (.inl ⟨hm, rfl⟩)
  refine ⟨?words, fun d s hm => ?writesNMax, fun d s hm => ?seqNMax, seq, writes, fun n d s hm hd => ?range⟩
  case words => exact selectedBy_of_selectCommand (fun _ => rfl) rfl (fun _ => rfl)
  case writesNMax => rw [exec_cfgw]; exact writes Config.nMax d s hm (le_nMax d)
  case seqNMax => rw [exec_cfgw]; exact seq Config.nMax d s hm
  case range => exact cfgwAt_next.mpr (.inr (.inr ⟨hm, BitVec.not_le.mpr hd, rfl⟩))

/-- Settles O44: each index below 0x0A names its register by the map `readRegister`, and no other index names one. -/
theorem rdregReadsTheRegisterMap : Obligations.RdregReadsTheRegisterMap := by
  refine ⟨?words, fun s => ⟨?status, ?errc, ?sr, ?ks, ?ck, ?cnt, ?plen, ?cfg, ?flags, ?nmax⟩, fun d s hd => ?range⟩
  case words => exact selectedBy_of_selectCommand (fun _ => rfl) rfl (fun _ => rfl)
  case errc => rw [← ErrCode.code_setWidth]; exact exec_rdreg_of_register rfl
  case range => exact rdregAt_next.mpr (.inr ⟨readRegister_eq_none_of_le hd, rfl⟩)
  all_goals exact exec_rdreg_of_register rfl

end Sys2Proof.Proofs
end

section
/-! PROOFS. Command errors (spec 60_exceptions.md R210 to R212): every command raises exactly the error that the table and the
priority give it, or completes. -/

namespace Sys2Proof.Machine

variable {e e' : ErrCode} {o o' : Out} {s t : State} {w : RspWord}

/-- How a command on `s` ends that raises error `e`, where `noError` means that it completes: a response with CODE 0. -/
inductive EndsWith (s : State) : ErrCode → Out → Prop where
  | rejected {e : ErrCode} (he : e ≠ .noError) : EndsWith s e (raise e s)
  | completed {t : State} {w : RspWord} (hrsp : t.rsp = some w) (hw : rspCode w = 0) : EndsWith s .noError (.next t)

/-- Either way there is one response, and its CODE is the error's. -/
theorem EndsWith.answers (h : EndsWith s e o) : ∃ t w, o = .next t ∧ t.rsp = some w ∧ rspCode w = e.code := by
  cases h with
  | rejected he => exact ⟨s.rejected e, errorWord e, raise_eq e s, rfl, rspCode_errorWord e⟩
  | completed hrsp hw => exact ⟨_, _, rfl, hrsp, hw⟩

/-- A nonzero CODE tells the rejection, whose state R211 gives. -/
theorem EndsWith.eq_rejected (h : EndsWith s e (.next t)) (hrsp : t.rsp = some w) (hw : rspCode w ≠ 0) :
    e ≠ .noError ∧ t = s.rejected e := by
  generalize ho : (Host.Outcome.next t : Out) = o at h
  cases h with
  | rejected he => exact ⟨he, raise_next.mp ho.symm⟩
  | completed hrsp' hw' =>
    cases ho
    rw [hrsp, Option.some.injEq] at hrsp'
    exact absurd (hrsp' ▸ hw') hw

theorem emitNone_endsWith (u : State) : EndsWith s .noError (emitNone u) := .completed rfl rspCode_emptyWord

theorem emit_endsWith (t : Tag) (b : Byte) (u : State) : EndsWith s .noError (emit t b u) :=
  .completed rfl (rspCode_emitWord t b)

/-- SEQ comes before the command's own checks (R212). -/
theorem requireMode_endsWith {m : Mode} (h : EndsWith s e o) :
    EndsWith s (if s.mode ≠ m then .seq else e) (requireMode m s o) := by
  by_cases hm : s.mode = m
  · rwa [requireMode_of_eq o hm, if_neg (not_not_intro hm)]
  · rw [requireMode_of_ne o hm, if_pos hm]
    exact .rejected nofun

/-- A check of a command's own: the table's condition `c` and the model's `c'` say the same. -/
theorem EndsWith.ite {c c' : Prop} [Decidable c] [Decidable c'] (hc : c ↔ c') (h : c → EndsWith s e o)
    (h' : ¬c → EndsWith s e' o') : EndsWith s (if c then e else e') (if c' then o else o') := by
  by_cases hp : c
  · rw [if_pos hp, if_pos (hc.mp hp)]
    exact h hp
  · rw [if_neg hp, if_neg (mt hc.mpr hp)]
    exact h' hp

/-- The same check, where the model asks the opposite question. -/
theorem EndsWith.ite_of_not_iff {c c' : Prop} [Decidable c] [Decidable c'] (hc : ¬c ↔ c') (h : c → EndsWith s e o)
    (h' : ¬c → EndsWith s e' o') : EndsWith s (if c then e else e') (if c' then o' else o) := by
  rw [← ite_not]
  exact .ite hc h' fun hp => h (not_not.mp hp)

/-- The indices that name no register are those above 0x09 (R27). -/
theorem readRegister_eq_none_iff {n d : Byte} : readRegister n d s = none ↔ 0x09 < d := by
  refine ⟨fun h => ?_, fun h => readRegister_eq_none_of_le (by bv_omega)⟩
  by_contra hd
  have hle : d.toNat ≤ 9 := by bv_omega
  unfold readRegister at h
  interval_cases d.toNat <;> cases h

theorem execRdreg_endsWith (d : Byte) (s : State) :
    EndsWith s (commandError Config.nMax (.rdreg d) s) (execRdreg d s) := by
  rw [commandError, execRdreg, rdregAt]
  cases hr : readRegister Config.nMax d s with
  | none =>
    rw [if_pos (readRegister_eq_none_iff.mp hr)]
    exact .rejected nofun
  | some v =>
    rw [if_neg fun hd => by simp [readRegister_eq_none_iff.mpr hd] at hr]
    exact emit_endsWith .reg v s

theorem execEnce_endsWith (s : State) : EndsWith s (commandError Config.nMax .ence s) (execEnce s) :=
  requireMode_endsWith <|
    .ite .rfl (fun _ => .rejected nofun) fun _ =>
      .ite lengthWrong_iff.symm (fun _ => .rejected nofun) fun _ => emit_endsWith .check s.ck _

/-- At CNT = N_MAX, DECB discards the byte and raises nothing: the overflow is DECE's to report (R141, R142). -/
theorem execDecb_endsWith (d : Byte) (s : State) :
    EndsWith s (commandError Config.nMax (.decb d) s) (execDecb d s) := by
  apply requireMode_endsWith
  split
  · exact emitNone_endsWith _
  · rw [decbAt_nMax_ok _ ‹_›]
    exact emitNone_endsWith _

theorem execCfgw_endsWith (d : Byte) (s : State) :
    EndsWith s (commandError Config.nMax (.cfgw d) s) (execCfgw d s) :=
  requireMode_endsWith <|
    .ite_of_not_iff (BitVec.not_lt.trans decide_eq_true_iff.symm) (fun _ => .rejected nofun) fun _ => emitNone_endsWith _

theorem execRdpay_endsWith (d : Byte) (s : State) :
    EndsWith s (commandError Config.nMax (.rdpay d) s) (execRdpay d s) := by
  refine .ite_of_not_iff not_not (fun _ => .rejected nofun) fun _ =>
    .ite_of_not_iff (BitVec.not_le.trans decide_eq_true_iff.symm) (fun _ => .rejected nofun) fun hd => ?_
  rw [rdpayAt_nMax_ok (BitVec.not_le.mp hd)]
  exact emit_endsWith .pay _ s

/-- Every command ends with exactly the error of the table (R210), in the priority of R212. -/
theorem exec_endsWith_commandError (i : Instr) (s : State) : EndsWith s (commandError Config.nMax i s) (exec i s) := by
  cases i with
  | nop | clrerr | abort | srst | sset _ => exact emitNone_endsWith _
  | sstep _ | schk _ => exact emit_endsWith .prim _ _
  | map d => exact emit_endsWith .map d s
  | encs d =>
    exact requireMode_endsWith (.ite .rfl (fun _ => .rejected nofun) fun _ => emit_endsWith .seed d _)
  | encb d =>
    exact requireMode_endsWith (.ite .rfl (fun _ => .rejected nofun) fun _ => emit_endsWith .data _ _)
  | ence => exact execEnce_endsWith s
  | decs _ => exact requireMode_endsWith (emitNone_endsWith _)
  | decb d => exact execDecb_endsWith d s
  | dece _ | dec1 _ => exact requireMode_endsWith (emit_endsWith .rslt _ _)
  | cfgw d => exact execCfgw_endsWith d s
  | rdreg d => exact execRdreg_endsWith d s
  | rdpay d => exact execRdpay_endsWith d s

end Sys2Proof.Machine

namespace Sys2Proof.Proofs

open Sys2Proof.Machine

/-- Settles O16: every command ends with the table's error (`exec_endsWith_commandError`), and so answers its code. -/
theorem commandErrorsFollowTheTable : Obligations.CommandErrorsFollowTheTable :=
  ⟨rfl, fun i s => (exec_endsWith_commandError i s).answers, fun _ s ⟨_, he⟩ => acceptWord_of_error exec s he⟩

/-- Settles O17: the error is the table's own (`exec_endsWith_commandError`), and a nonzero CODE leaves only its rejected
state. -/
theorem rejectionChangesOnlyErrorRegisters : Obligations.RejectionChangesOnlyErrorRegisters := by
  intro i s t w hnext hrsp hw
  have hend := exec_endsWith_commandError i s
  rw [hnext] at hend
  obtain ⟨hne, rfl⟩ := hend.eq_rejected hrsp hw
  have hword : errorWord (commandError Config.nMax i s) = w := Option.some.inj hrsp
  exact ⟨commandError Config.nMax i s, by rw [← hword, rspCode_errorWord], hne, State.rejected_eq s _⟩

end Sys2Proof.Proofs
end

section
/-! PROOFS. Decoding and encoding, command by command (spec 30_encoding.md R60 to R64): the encoder puts a command's
OP and SUB under the mask and its operand in D, and the decoder reads no other bit than those. -/

namespace Sys2Proof

variable {w w' : CmdWord} {i : Instr} {op sub : Nat} {d d' : Byte}

/-- Every command's encoding has the layout that `EncodingLayout` states. -/
theorem encodingLayout (i : Instr) : encode i &&& 0xFF00 = i.matchBits ∧ dField (encode i) = i.operandByte := by
  cases i with
  | nop => exact Laws.EncodingLayout.nop
  | clrerr => exact Laws.EncodingLayout.clrerr
  | abort => exact Laws.EncodingLayout.abort
  | srst => exact Laws.EncodingLayout.srst
  | sset d => exact Laws.EncodingLayout.sset d
  | sstep b => exact Laws.EncodingLayout.sstep b
  | schk d => exact Laws.EncodingLayout.schk d
  | encs d => exact Laws.EncodingLayout.encs d
  | encb d => exact Laws.EncodingLayout.encb d
  | ence => exact Laws.EncodingLayout.ence
  | decb d => exact Laws.EncodingLayout.decb d
  | dece d => exact Laws.EncodingLayout.dece d
  | decs d => exact Laws.EncodingLayout.decs d
  | dec1 d => exact Laws.EncodingLayout.dec1 d
  | map d => exact Laws.EncodingLayout.map d
  | cfgw d => exact Laws.EncodingLayout.cfgw d
  | rdreg d => exact Laws.EncodingLayout.rdreg d
  | rdpay d => exact Laws.EncodingLayout.rdpay d

/-- OP and SUB of a command's `match` select the command, with its own operand byte (R62, R64). -/
theorem selectCommand_matchBits (i : Instr) :
    selectCommand (opField i.matchBits).toNat (subField i.matchBits).toNat i.operandByte = .ok i := by
  cases i with
  | sstep b => cases b <;> rfl
  | _ => dsimp only [Instr.matchBits, Instr.operandByte]; rfl

/-- The fields under the mask are read alike from two words that agree there. -/
theorem fields_eq_of_and_mask_eq (h : w &&& 0xFF00 = w' &&& 0xFF00) :
    rzField w = rzField w' ∧ opField w = opField w' ∧ subField w = subField w' := by
  refine ⟨?_, ?_, ?_⟩
  · rw [← rzField_and_mask w, h, rzField_and_mask]
  · rw [← opField_and_mask w, h, opField_and_mask]
  · rw [← subField_and_mask w, h, subField_and_mask]

theorem decode_encode (i : Instr) : decode (encode i) = .ok i := by
  obtain ⟨hmask, hd⟩ := encodingLayout i
  obtain ⟨-, hmatch, hrz⟩ := opcodeTable_matchBits.1 _ (row_mem_opcodeTable i)
  obtain ⟨hrz', hop, hsub⟩ := fields_eq_of_and_mask_eq (hmask.trans hmatch.symm)
  rw [decode_ok, hrz', hop, hsub, hd]
  exact ⟨hrz, selectCommand_matchBits i⟩

theorem and_0xFF (d : Byte) : d &&& 0xFF = d := BitVec.and_allOnes

/-- SSTEP's operand is the bit that its command uses (R61). -/
theorem bitXorOf_and_one (d : Byte) : bitXorOf (d &&& 0x01) = bitXorOf d := by
  revert d; decide

/-- A selected command holds the bits of `d` that it uses, and 0 in the others (R61). -/
theorem operandByte_of_selectCommand (h : selectCommand op sub d = .ok i) : i.operandByte = d &&& i.usedBits := by
  unfold selectCommand at h
  split at h
  case h_19 => split at h <;> cases h
  case h_6 => cases h; revert d; decide
  all_goals cases h
  all_goals first | exact BitVec.and_zero.symm | exact (and_0xFF d).symm

/-- Only the used bits of `d` decide which command is selected (R61). -/
theorem selectCommand_congr (h : selectCommand op sub d = .ok i) (hd : d' &&& i.usedBits = d &&& i.usedBits) :
    selectCommand op sub d' = .ok i := by
  have hall (h : d' &&& 0xFF = d &&& 0xFF) : d' = d := by rwa [and_0xFF, and_0xFF] at h
  have hbit (h : d' &&& 0x01 = d &&& 0x01) : bitXorOf d' = bitXorOf d := by
    rw [← bitXorOf_and_one, h, bitXorOf_and_one]
  unfold selectCommand at h ⊢
  split at h
  case h_6 => cases h; rw [hbit hd]
  all_goals first | exact h | (cases h; rw [hall hd])

/-- The bits of a word that a command does not ignore: those under the mask, and the used ones of D. -/
theorem and_usedBits (w : CmdWord) (u : Byte) :
    w &&& (0xFF00 ||| u.setWidth 16) = (w &&& 0xFF00) ||| (dField w &&& u).setWidth 16 := by
  refine BitVec.eq_of_getLsbD_eq fun k hk => ?_
  simp only [BitVec.getLsbD_and, BitVec.getLsbD_or, getLsbD_mask hk, BitVec.getLsbD_setWidth, dField,
    BitVec.getLsbD_extractLsb', Nat.zero_add]
  by_cases h8 : k < 8
  · simp [hk, h8, Bool.and_or_distrib_left]
  · simp [BitVec.getLsbD_of_ge u k (by omega)]

/-- The encoder puts back every bit that the decoded command uses (R61, R62). -/
theorem encode_of_decode (h : decode w = .ok i) : encode i = w &&& (0xFF00 ||| i.usedBits.setWidth 16) := by
  obtain ⟨-, hsel⟩ := decode_ok.mp h
  rw [and_usedBits, and_mask_of_decode_ok h, ← operandByte_of_selectCommand hsel, encode]

theorem dField_mask_or_setWidth (w : CmdWord) (d : Byte) : dField ((w &&& 0xFF00) ||| d.setWidth 16) = d := by
  refine BitVec.eq_of_getLsbD_eq fun k hk => ?_
  rw [dField, BitVec.getLsbD_extractLsb', Nat.zero_add, BitVec.getLsbD_or, BitVec.getLsbD_and,
    getLsbD_mask (by omega), BitVec.getLsbD_setWidth]
  simp [hk, show ¬ 8 ≤ k by omega, show k < 16 by omega]

/-- Words that agree in the bits that the first one's command does not ignore decode alike (R61). -/
theorem decode_congr (h : decode w = .ok i)
    (hbits : w' &&& (0xFF00 ||| i.usedBits.setWidth 16) = w &&& (0xFF00 ||| i.usedBits.setWidth 16)) :
    decode w' = .ok i := by
  rw [and_usedBits, and_usedBits] at hbits
  have hd : dField w' &&& i.usedBits = dField w &&& i.usedBits := by
    have := congrArg dField hbits
    rwa [dField_mask_or_setWidth, dField_mask_or_setWidth] at this
  have hmask : w' &&& 0xFF00 = w &&& 0xFF00 := by
    rw [hd] at hbits
    have := congrArg (· &&& (0xFF00 : CmdWord)) hbits
    rw [BitVec.and_or_distrib_right, BitVec.and_or_distrib_right, setWidth_and_mask] at this
    simpa only [BitVec.and_assoc, BitVec.and_self, BitVec.ofNat_eq_ofNat, BitVec.or_zero] using this
  obtain ⟨hrz, hsel⟩ := decode_ok.mp h
  obtain ⟨hrz', hop, hsub⟩ := fields_eq_of_and_mask_eq hmask
  rw [decode_ok, hrz', hop, hsub]
  exact ⟨hrz, selectCommand_congr hsel hd⟩

/-- The pairs (OP, SUB) with OP from 1 to 6 that select no command (R63). -/
theorem selectCommand_error_iff (hsub : sub < 4) :
    (∃ e, selectCommand op sub d = .error e) ↔
      7 ≤ op ∨ (op, sub) ∈ [(1, 3), (2, 3), (4, 1), (4, 2), (4, 3), (5, 1), (5, 2), (5, 3), (6, 2), (6, 3)] := by
  by_cases hop : 7 ≤ op
  · have hsel : selectCommand op sub d = .error .unassignedOp := by
      unfold selectCommand
      split
      case h_19 => exact if_neg (by omega)
      all_goals omega
    simp [hsel, hop]
  · have hop : op < 7 := by omega
    interval_cases op <;> interval_cases sub <;> simp [selectCommand]

/-- The illegal words (R63): RZ is checked before (OP, SUB). -/
theorem decode_error_iff :
    (∃ e, decode w = .error e) ↔
      rzField w ≠ 0 ∨ ∃ e, selectCommand (opField w).toNat (subField w).toNat (dField w) = .error e := by
  unfold decode
  split
  next h => simp [h]
  next h => exact ⟨fun _ => .inl h, fun _ => ⟨_, rfl⟩⟩

end Sys2Proof

namespace Sys2Proof.Proofs

open Sys2Proof.Machine

/-- Settles O1: the encoding's fields are those of the command's `match` and operand, which select the command. -/
theorem decodeEncodeRoundTrip : Obligations.DecodeEncodeRoundTrip := decode_encode

/-- Settles O2. -/
theorem encodeOfDecodedKeepsUsedBits : Obligations.EncodeOfDecodedKeepsUsedBits :=
  fun _ _ => encode_of_decode

/-- Settles O4: an accepted illegal word is rejected, and a rejection writes ERRC, ERRF and the response alone. -/
theorem illegalWordsAreRejected : Obligations.IllegalWordsAreRejected := by
  refine ⟨fun w => ?words, fun s p rest hin ⟨e, he⟩ hrst hvalid hready => ?rejected⟩
  case words => exact decode_error_iff.trans (or_congr_right (selectCommand_error_iff (subField w).isLt))
  case rejected =>
    have hpins : s.pins = p := State.pins_cons hin
    have hacc : accepts s.pins s = true := accepts_iff.mpr (hpins ▸ ⟨hrst, hvalid, hready⟩)
    rw [step_of_accepts hacc, hpins, acceptWord_of_error exec s.tick he, State.rejected_eq, State.tick, hin]
    rfl

/-- Settles O5: words that differ in no used bit agree under the command's bits. -/
theorem ignoredBitsHaveNoEffect : Obligations.IgnoredBitsHaveNoEffect := by
  intro w w' i h hxor
  refine decode_congr h (BitVec.eq_of_getLsbD_eq fun k _ => ?_)
  have hk := congrArg (BitVec.getLsbD · k) hxor
  simp only [BitVec.getLsbD_and, BitVec.getLsbD_xor, BitVec.getLsbD_zero, BitVec.ofNat_eq_ofNat] at hk ⊢
  rw [Bool.and_xor_distrib_right] at hk
  exact (bne_eq_false_iff_eq.mp hk).symm

/-- Settles O6. -/
theorem exampleWordsDecode : Obligations.ExampleWordsDecode := by
  unfold Obligations.ExampleWordsDecode
  decide

end Sys2Proof.Proofs
end

section
/-! PROOFS. The assembler's lines (spec 30_encoding.md R80): the well-formed lines are exactly the lines of the
commands, and a command's line assembles to its word. -/

namespace Sys2Proof

open Sys2Proof.Machine

/-- The line that a command is written as: its operand byte where its mnemonic takes one (R80). -/
def Instr.line (i : Instr) : Line :=
  ⟨i.mnemonic, if plainMnemonics.contains i.mnemonic then none else some i.operandByte.toNat⟩

theorem line_wellFormed (i : Instr) : i.line.wellFormed = true := by
  cases i with
  | sstep b => cases b <;> decide
  | nop | clrerr | abort | srst | ence => decide
  | _ d => exact Bool.and_eq_true_iff.mpr ⟨decide_eq_true (Nat.le_of_lt_succ d.isLt), rfl⟩

/-- A byte-sized number is the operand of its byte. -/
theorem toNat_ofNat_of_le {n : Nat} (h : n ≤ 255) : (BitVec.ofNat 8 n).toNat = n :=
  BitVec.toNat_ofNat .. ▸ Nat.mod_eq_of_lt (by omega)

/-- Every well-formed line is some command's: the mnemonics that take no operand name one command each, the others one
for each operand in range. -/
theorem exists_line_eq {l : Line} (h : l.wellFormed = true) : ∃ i : Instr, i.line = l := by
  obtain ⟨m, operand⟩ := l
  cases operand with
  | none =>
    have hm : m ∈ plainMnemonics := by simpa [Line.wellFormed] using h
    simp only [plainMnemonics, List.mem_cons, List.not_mem_nil, or_false] at hm
    obtain rfl | rfl | rfl | rfl | rfl := hm
    exacts [⟨.nop, rfl⟩, ⟨.clrerr, rfl⟩, ⟨.abort, rfl⟩, ⟨.srst, rfl⟩, ⟨.ence, rfl⟩]
  | some n =>
    obtain ⟨⟨hm, hn⟩, hbit⟩ : (m ∈ operandMnemonics ∧ n ≤ 255) ∧ (m ≠ "SSTEP" ∨ n ≤ 1) := by
      simpa [Line.wellFormed] using h
    have hline {f : Byte → Instr} (hf : ∀ d, (f d).line = ⟨m, some d.toNat⟩) : ∃ i : Instr, i.line = ⟨m, some n⟩ :=
      ⟨f (BitVec.ofNat 8 n), by rw [hf, toNat_ofNat_of_le hn]⟩
    simp only [operandMnemonics, List.mem_cons, List.not_mem_nil, or_false] at hm
    obtain rfl | rfl | rfl | rfl | rfl | rfl | rfl | rfl | rfl | rfl | rfl | rfl | rfl := hm
    case inr.inl =>
      have hn1 : n ≤ 1 := hbit.resolve_left (not_not_intro rfl)
      interval_cases n
      exacts [⟨.sstep false, rfl⟩, ⟨.sstep true, rfl⟩]
    exacts [hline (f := .sset) fun _ => rfl, hline (f := .schk) fun _ => rfl, hline (f := .encs) fun _ => rfl,
      hline (f := .encb) fun _ => rfl, hline (f := .decb) fun _ => rfl, hline (f := .dece) fun _ => rfl,
      hline (f := .decs) fun _ => rfl, hline (f := .dec1) fun _ => rfl, hline (f := .map) fun _ => rfl,
      hline (f := .cfgw) fun _ => rfl, hline (f := .rdreg) fun _ => rfl, hline (f := .rdpay) fun _ => rfl]

/-- The assembler finds a command's row by its mnemonic. -/
theorem find?_mnemonic (i : Instr) :
    opcodeTable.find? (fun r => r.mnemonic == i.mnemonic) = some ⟨i.mnemonic, i.matchBits, 0xFF00⟩ := by
  cases i <;> rfl

/-- A command's line writes its operand byte, or none where that byte is 0. -/
theorem line_operand (i : Instr) : BitVec.ofNat 16 (i.line.operand.getD 0) = i.operandByte.setWidth 16 := by
  cases i with
  | nop | clrerr | abort | srst | ence => rfl
  | _ => exact BitVec.ofNat_toNat ..

theorem assembleLine_line (i : Instr) : assembleLine i.line = some (encode i) := by
  rw [assembleLine, if_pos (line_wellFormed i), line_operand, Instr.line, find?_mnemonic]
  rfl

end Sys2Proof

namespace Sys2Proof.Proofs

open Sys2Proof.Machine

/-- Settles O58: well-formed lines are the lines of commands (`exists_line_eq`), and a command's line assembles to its
encoding. -/
theorem linesAssembleToTheirCommands : Obligations.LinesAssembleToTheirCommands := by
  refine ⟨fun l hl => ?assembles, fun i => ⟨i.line, line_wellFormed i, assembleLine_line i⟩, fun l hl => ?illFormed⟩
  case assembles =>
    obtain ⟨i, rfl⟩ := exists_line_eq hl
    exact ⟨encode i, i, assembleLine_line i, decode_encode i, rfl, by rw [line_operand, encode], rfl⟩
  case illFormed => rw [assembleLine, hl]; rfl

end Sys2Proof.Proofs
end

section
/-! PROOFS. The scrambler functions iterated (spec 40_scrambler.md R102 to R106): the keystream's single cycle, and
how a change in a byte moves through the checksum. -/

namespace Sys2Proof.Machine

open Function (minimalPeriod IsPeriodicPt)

/-! The keystream update (R106 (a) to (c)) -/

theorem ksPrev_ksNext (s : Byte) : ksPrev (ksNext s) = s := by
  revert s; decide

theorem ksNext_injective : Function.Injective ksNext :=
  Function.LeftInverse.injective ksPrev_ksNext

/-- On the finitely many bytes a left inverse is a right inverse. -/
theorem ksNext_ksPrev (s : Byte) : ksNext (ksPrev s) = s :=
  Function.LeftInverse.rightInverse_of_surjective ksPrev_ksNext (Finite.surjective_of_injective ksNext_injective) s

theorem ksNext_zero : ksNext 0 = 0 := rfl

theorem ksNext_iterate_eq_zero_iff (k : Nat) (s : Byte) : ksNext^[k] s = 0 ↔ s = 0 := by
  have hzero : ksNext^[k] 0 = 0 := Function.iterate_fixed ksNext_zero k
  exact ⟨fun h => ksNext_injective.iterate k (h.trans hzero.symm), fun h => h ▸ hzero⟩

set_option maxRecDepth 20000 in
/-- A third of the cycle at a time, from 1 back to 1. -/
theorem ksNext_iterate_85 : ksNext^[85] 1 = 0x1b ∧ ksNext^[85] 0x1b = 0x1a ∧ ksNext^[85] 0x1a = 1 := by decide

set_option maxRecDepth 20000 in
theorem ksNext_iterate_ne_one : ksNext^[51] 1 ≠ 1 ∧ ksNext^[15] 1 ≠ 1 := by decide

/-- From 1 the period divides 255, and no proper divisor of 255 is a period: each divides 85, 51 or 15. -/
theorem minimalPeriod_ksNext_one : minimalPeriod ksNext 1 = 255 := by
  obtain ⟨h85, h170, h255⟩ := ksNext_iterate_85
  obtain ⟨h51, h15⟩ := ksNext_iterate_ne_one
  have hperiod : IsPeriodicPt ksNext 255 1 := by
    rw [IsPeriodicPt, show 255 = 85 + (85 + 85) from rfl, Function.iterate_add, Function.iterate_add]
    simp only [Function.IsFixedPt, Function.comp_apply, h85, h170, h255]
  have hdvd : minimalPeriod ksNext 1 ∈ Nat.divisors 255 :=
    Nat.mem_divisors.mpr ⟨hperiod.minimalPeriod_dvd, by decide⟩
  have hne {k : Nat} (h : ksNext^[k] 1 ≠ 1) : ¬ minimalPeriod ksNext 1 ∣ k :=
    fun hk => h (Function.isPeriodicPt_iff_minimalPeriod_dvd.mpr hk)
  have hdivisors : ∀ p ∈ Nat.divisors 255, ¬ p ∣ 85 → ¬ p ∣ 51 → ¬ p ∣ 15 → p = 255 := by decide
  exact hdivisors _ hdvd (hne (by rw [h85]; decide)) (hne h51) (hne h15)

/-- The cycle of 1 passes 255 different nonzero states, so all of them. -/
theorem exists_ksNext_iterate_one {t : Byte} (ht : t ≠ 0) : ∃ k < 255, ksNext^[k] 1 = t := by
  have hinj : Set.InjOn (fun k => ksNext^[k] 1) (Finset.range 255) := by
    rw [Finset.coe_range, ← minimalPeriod_ksNext_one]
    exact Function.iterate_injOn_Iio_minimalPeriod
  have hsub : (Finset.range 255).image (fun k => ksNext^[k] 1) ⊆ Finset.univ.erase 0 := by
    intro u hu
    obtain ⟨k, -, rfl⟩ := Finset.mem_image.mp hu
    exact Finset.mem_erase.mpr ⟨mt (ksNext_iterate_eq_zero_iff k 1).mp (by decide), Finset.mem_univ _⟩
  have hcard : (Finset.univ.erase (0 : Byte)).card = 255 := by
    rw [Finset.card_erase_of_mem (Finset.mem_univ _), Finset.card_univ, Fintype.card_congr BitVec.equivFin.toEquiv,
      Fintype.card_fin]
    rfl
  have hall : (Finset.range 255).image (fun k => ksNext^[k] 1) = Finset.univ.erase 0 :=
    Finset.eq_of_subset_of_card_le hsub (by rw [Finset.card_image_of_injOn hinj, hcard, Finset.card_range])
  obtain ⟨k, hk, hkt⟩ := Finset.mem_image.mp (hall ▸ Finset.mem_erase.mpr ⟨ht, Finset.mem_univ t⟩)
  exact ⟨k, Finset.mem_range.mp hk, hkt⟩

/-- Every nonzero state lies on that cycle, so its period is 255 too. -/
theorem minimalPeriod_ksNext {s : Byte} (hs : s ≠ 0) : minimalPeriod ksNext s = 255 := by
  obtain ⟨k, -, rfl⟩ := exists_ksNext_iterate_one hs
  have hmem : 1 ∈ Function.periodicPts ksNext :=
    Function.minimalPeriod_pos_iff_mem_periodicPts.mp (by rw [minimalPeriod_ksNext_one]; decide)
  rw [Function.minimalPeriod_apply_iterate hmem, minimalPeriod_ksNext_one]

/-- From a nonzero state every nonzero state comes within 255 updates (R106 (c)): back to 1 around the cycle, then on.
-/
theorem exists_ksNext_iterate {s t : Byte} (hs : s ≠ 0) (ht : t ≠ 0) : ∃ k < 255, ksNext^[k] s = t := by
  obtain ⟨j, hj, rfl⟩ := exists_ksNext_iterate_one hs
  obtain ⟨k, hk, rfl⟩ := exists_ksNext_iterate_one ht
  refine ⟨(k + 255 - j) % 255, Nat.mod_lt _ (by decide), ?_⟩
  calc ksNext^[(k + 255 - j) % 255] (ksNext^[j] 1)
      = ksNext^[k + 255 - j] (ksNext^[j] 1) := by
        rw [← minimalPeriod_ksNext hs, Function.iterate_mod_minimalPeriod_eq]
    _ = ksNext^[k + 255] 1 := by rw [← Function.iterate_add_apply, Nat.sub_add_cancel (by omega)]
    _ = ksNext^[k] 1 := by
        rw [← minimalPeriod_ksNext_one, Function.iterate_add_minimalPeriod_eq]

/-! The checksum (R105, R106 (e)) -/

theorem eightSteps_eq_iterate : eightSteps = ksNext^[8] := rfl

theorem eightSteps_iterate_eq_zero_iff (k : Nat) (e : Byte) : eightSteps^[k] e = 0 ↔ e = 0 := by
  rw [eightSteps_eq_iterate, ← Function.iterate_mul, ksNext_iterate_eq_zero_iff]

theorem checksum_cons (s b : Byte) (p : List Byte) : checksum s (b :: p) = checksum (chk8 s b) p := rfl

theorem checksum_append (s : Byte) (p q : List Byte) : checksum s (p ++ q) = checksum (checksum s p) q :=
  List.foldl_append

/-- A change in the state is carried through eight steps a byte. -/
theorem checksum_xor (s e : Byte) (p : List Byte) :
    checksum (s ^^^ e) p = checksum s p ^^^ eightSteps^[p.length] e := by
  induction p generalizing s e with
  | nil => rfl
  | cons b p ih =>
    have hchk : chk8 (s ^^^ e) b = chk8 s b ^^^ eightSteps e := by
      rw [← chk8_zero, ← chk8_xor]; simp
    rw [checksum_cons, checksum_cons, hchk, ih, List.length_cons, Function.iterate_succ_apply]

/-- A change in byte `i` is one in the state after it, carried through the bytes that follow. -/
theorem checksum_set_xor (s e : Byte) (p : List Byte) (i : Nat) (h : i < p.length) :
    checksum s (p.set i (p[i] ^^^ e)) = checksum s p ^^^ eightSteps^[p.length - i] e := by
  induction p generalizing s i with
  | nil => exact absurd h (Nat.not_lt_zero i)
  | cons b p ih =>
    cases i with
    | zero =>
      have hchk : chk8 s (b ^^^ e) = chk8 s b ^^^ eightSteps e := by
        rw [chk8_eq_eightSteps, chk8_eq_eightSteps, ← BitVec.xor_assoc, eightSteps_xor]
      rw [List.set_cons_zero, checksum_cons, List.getElem_cons_zero, hchk, checksum_xor]
      rfl
    | succ i =>
      rw [List.set_cons_succ, checksum_cons, List.getElem_cons_succ, ih, List.length_cons, Nat.add_sub_add_right]
      rfl

end Sys2Proof.Machine

namespace Sys2Proof.Proofs

open Sys2Proof.Machine

/-- Settles O8. -/
theorem bitSerialChecksumIsTheNetwork : Obligations.BitSerialChecksumIsTheNetwork :=
  fun s d => ⟨chk8_eq_eightSteps s d, chk8_eq_checksumNetwork s d⟩

/-- Settles O9. -/
theorem eightStepsAreLinear : Obligations.EightStepsAreLinear :=
  ⟨eightSteps_xor, rfl, by decide, eightSteps_eq_checksumNetwork⟩

/-- Settles O10. -/
theorem keystreamUpdateIsInvertible : Obligations.KeystreamUpdateIsInvertible :=
  ⟨ksPrev_ksNext, ksNext_ksPrev, ksNext_zero⟩

/-- Settles O11: the cycle of 1 has length 255 and holds every nonzero state. -/
theorem keystreamPeriodIs255 : Obligations.KeystreamPeriodIs255 := by
  refine fun s hs => ⟨fun k => ?_, fun k => mt (ksNext_iterate_eq_zero_iff k s).mp hs,
    fun t ht => exists_ksNext_iterate hs ht⟩
  rw [← minimalPeriod_ksNext hs]
  exact Function.isPeriodicPt_iff_minimalPeriod_dvd

/-- Settles O12. -/
theorem checksumSeesEveryByteChange : Obligations.ChecksumSeesEveryByteChange :=
  fun s e p i h => ⟨checksum_set_xor s e p i h, mt (eightSteps_iterate_eq_zero_iff _ e).mp⟩

end Sys2Proof.Proofs
end

section
/-! PROOFS. What a command leaves unchanged, and how it completes (spec 10_state.md R13 to R26, 30_encoding.md R71):
each command's branches are gone through once, for its registers and its answer. -/

namespace Sys2Proof.Machine

variable {i : Instr} {s t u : State}

/-- A frame's end writes only the result and MODE (R142). -/
theorem endFrame_eq (r : Rsn) (s : State) :
    ∃ res len, endFrame r s = { s with res := res, rsn := r, plen := len, mode := .idle } := by
  cases r <;> exact ⟨_, _, rfl⟩

/-! The registers and their writers -/

/-- From `s` to `t`, every register is unchanged whose rule does not list command `i` as a writer. -/
structure KeepsUnlisted (i : Instr) (s t : State) : Prop where
  /-- R13 -/
  sr : i.mnemonic ∉ ["SSET", "SSTEP", "SCHK", "SRST"] → t.sr = s.sr
  /-- R14, R15 -/
  ks_ck : i.mnemonic ∉ ["ENCS", "DECS", "ENCB", "DECB", "SRST"] → t.ks = s.ks ∧ t.ck = s.ck
  /-- R17 -/
  cnt : i.mnemonic ∉ ["ENCS", "DECS", "DEC1", "ABORT", "SRST", "ENCB", "DECB"] → t.cnt = s.cnt
  /-- R18 -/
  zs : i.mnemonic ∉ ["DECS", "ENCS", "DEC1", "ABORT", "SRST"] → t.zs = s.zs
  /-- R19 -/
  ovf : i.mnemonic ∉ ["DECB", "ENCS", "DECS", "DEC1", "ABORT", "SRST"] → t.ovf = s.ovf
  /-- R20 to R22 -/
  result : i.mnemonic ∉ ["DECS", "DECE", "DEC1", "SRST"] → t.res = s.res ∧ t.rsn = s.rsn ∧ t.plen = s.plen
  /-- R23 -/
  cfg : i.mnemonic ∉ ["CFGW", "SRST"] → t.cfg = s.cfg
  /-- R26 -/
  pbuf : i.mnemonic ≠ "DECB" → t.pbuf = s.pbuf
  /-- the host's coming inputs -/
  inputs : t.inputs = s.inputs
  /-- the model's own counter -/
  edges : t.edges = s.edges
  /-- the model's own stamp -/
  pbufEpoch : t.pbufEpoch = s.pbufEpoch

theorem keepsUnlisted_rejected (i : Instr) (s : State) (e : ErrCode) : KeepsUnlisted i s (s.rejected e) := by
  constructor <;> simp

theorem keepsUnlisted_respond (i : Instr) (s : State) (w : RspWord) : KeepsUnlisted i s (s.respond w) := by
  constructor <;> simp

/-! How a command completes -/

/-- R71: the answer of a command that is not rejected, an output byte with the command's tag or none. -/
inductive IsAnswer : Option Tag → RspWord → Prop where
  | output (t : Tag) (b : Byte) : IsAnswer (some t) (emitWord t b)
  | empty : IsAnswer none emptyWord

/-- What a command that is not rejected leaves unchanged, answers, and does to the error registers (R24, R25, R71). -/
structure CompletesAs (i : Instr) (s t : State) : Prop where
  keeps : KeepsUnlisted i s t
  answer : ∃ w, t.rsp = some w ∧ IsAnswer (outputTag i) w
  errors : if i = .clrerr ∨ i = .srst then t.errf = false ∧ t.errc = .noError else t.errf = s.errf ∧ t.errc = s.errc

/-- A command is rejected with an error, or completes with its answer. -/
theorem exec_rejected_or_completesAs (h : exec i s = .next t) :
    (∃ e, e ≠ .noError ∧ t = s.rejected e) ∨ CompletesAs i s t := by
  have hrej {e : ErrCode} (ht : t = s.rejected e) (he : e ≠ .noError) :
      (∃ e, e ≠ .noError ∧ t = s.rejected e) ∨ CompletesAs i s t := .inl ⟨e, he, ht⟩
  cases i with
  | nop => cases emitNone_next.mp h; exact .inr ⟨keepsUnlisted_respond _ s _, ⟨_, rfl, .empty⟩, by simp⟩
  | map d => cases emit_next.mp h; exact .inr ⟨keepsUnlisted_respond _ s _, ⟨_, rfl, .output _ _⟩, by simp⟩
  | clrerr | abort | srst | sset _ =>
    cases emitNone_next.mp h
    exact .inr ⟨by constructor <;> simp [Instr.mnemonic], ⟨_, rfl, .empty⟩, by simp⟩
  | sstep _ | schk _ =>
    cases emit_next.mp h
    exact .inr ⟨by constructor <;> simp [Instr.mnemonic], ⟨_, rfl, .output _ _⟩, by simp⟩
  | encs d =>
    obtain ⟨-, ht⟩ | ⟨-, -, ht⟩ | ⟨-, -, rfl⟩ := execEncs_next.mp h
    · exact hrej ht nofun
    · exact hrej ht nofun
    · exact .inr ⟨by constructor <;> simp [Instr.mnemonic], ⟨_, rfl, .output _ _⟩, by simp⟩
  | encb d =>
    obtain ⟨-, ht⟩ | ⟨-, -, ht⟩ | ⟨-, -, rfl⟩ := encbAt_next.mp h
    · exact hrej ht nofun
    · exact hrej ht nofun
    · exact .inr ⟨by constructor <;> simp [Instr.mnemonic], ⟨_, rfl, .output _ _⟩, by simp⟩
  | ence =>
    obtain ⟨-, ht⟩ | ⟨-, -, ht⟩ | ⟨-, -, -, ht⟩ | ⟨-, -, -, rfl⟩ := execEnce_next.mp h
    · exact hrej ht nofun
    · exact hrej ht nofun
    · exact hrej ht nofun
    · exact .inr ⟨by constructor <;> simp, ⟨_, rfl, .output _ _⟩, by simp⟩
  | decs d =>
    obtain ⟨-, ht⟩ | ⟨-, rfl⟩ := execDecs_next.mp h
    · exact hrej ht nofun
    · exact .inr ⟨by constructor <;> simp [Instr.mnemonic], ⟨_, rfl, .empty⟩, by simp⟩
  | decb d =>
    obtain ⟨-, ht⟩ | ⟨-, -, rfl⟩ | ⟨-, -, u, hu, rfl⟩ := decbAt_next.mp h
    · exact hrej ht nofun
    · exact .inr ⟨by constructor <;> simp [Instr.mnemonic], ⟨_, rfl, .empty⟩, by simp⟩
    · obtain ⟨-, rfl⟩ := storePayload_ok hu
      exact .inr ⟨by constructor <;> simp [Instr.mnemonic], ⟨_, rfl, .empty⟩, by simp⟩
  | dece d =>
    obtain ⟨-, ht⟩ | ⟨-, rfl⟩ := execDece_next.mp h
    · exact hrej ht nofun
    · obtain ⟨res, len, hend⟩ := endFrame_eq (decodeReason d s) s
      rw [hend]
      exact .inr ⟨by constructor <;> simp [Instr.mnemonic], ⟨_, rfl, .output _ _⟩, by simp⟩
  | dec1 d =>
    obtain ⟨-, ht⟩ | ⟨-, rfl⟩ := (execDec1_next (d := d)).mp h
    · exact hrej ht nofun
    · exact .inr ⟨by constructor <;> simp [Instr.mnemonic], ⟨_, rfl, .output _ _⟩, by simp⟩
  | cfgw d =>
    obtain ⟨-, ht⟩ | ⟨-, -, rfl⟩ | ⟨-, -, ht⟩ := cfgwAt_next.mp h
    · exact hrej ht nofun
    · exact .inr ⟨by constructor <;> simp [Instr.mnemonic], ⟨_, rfl, .empty⟩, by simp⟩
    · exact hrej ht nofun
  | rdreg d =>
    obtain ⟨v, -, rfl⟩ | ⟨-, ht⟩ := rdregAt_next.mp h
    · exact .inr ⟨keepsUnlisted_respond _ s _, ⟨_, rfl, .output _ _⟩, by simp⟩
    · exact hrej ht nofun
  | rdpay d =>
    obtain ⟨-, ht⟩ | ⟨-, -, ht⟩ | ⟨-, -, v, -, rfl⟩ := rdpayAt_next.mp h
    · exact hrej ht nofun
    · exact hrej ht nofun
    · exact .inr ⟨keepsUnlisted_respond _ s _, ⟨_, rfl, .output _ _⟩, by simp⟩

/-- R13 to R26: a command writes only the registers that list it. -/
theorem exec_keepsUnlisted (h : exec i s = .next t) : KeepsUnlisted i s t := by
  obtain ⟨e, -, rfl⟩ | hc := exec_rejected_or_completesAs h
  · exact keepsUnlisted_rejected i s e
  · exact hc.keeps

/-- A response with CODE 0 tells that the command was not rejected. -/
theorem completesAs_of_rspCode {w : RspWord} (h : exec i s = .next t) (hrsp : t.rsp = some w) (hw : rspCode w = 0) :
    CompletesAs i s t := by
  obtain ⟨e, he, rfl⟩ | hc := exec_rejected_or_completesAs h
  · cases hrsp
    rw [rspCode_errorWord, ErrCode.code_eq_zero] at hw
    exact absurd hw he
  · exact hc

/-- Only CLRERR and SRST take back a recorded error (R215). -/
theorem exec_keeps_error (h : exec i s = .next t) (hf : s.errf = true) (hc : s.errc ≠ .noError) (hclr : i ≠ .clrerr)
    (hrst : i ≠ .srst) : t.errf = true ∧ t.errc ≠ .noError := by
  obtain ⟨e, he, rfl⟩ | hcomp := exec_rejected_or_completesAs h
  · exact ⟨rfl, he⟩
  · obtain ⟨hf', hc'⟩ := (if_neg (not_or.mpr ⟨hclr, hrst⟩)).mp hcomp.errors
    exact ⟨hf'.trans hf, hc'.trans_ne hc⟩

/-! Sequences of commands (20_memory.md R49) -/

/-- A command that answers `w` puts it before the later responses. -/
theorem runCommands_cons {is : List Instr} {w : RspWord} {rs : List RspWord} (h : exec i s = .next u)
    (hrsp : u.rsp = some w) (hrun : runCommands is u = some (rs, t)) : runCommands (i :: is) s = some (w :: rs, t) := by
  simp [runCommands, h, hrsp, hrun]

/-- Two sequences, one after the other. -/
theorem runCommands_append {is js : List Instr} {rs qs : List RspWord} (h : runCommands is s = some (rs, u))
    (h' : runCommands js u = some (qs, t)) : runCommands (is ++ js) s = some (rs ++ qs, t) := by
  induction is generalizing s rs with
  | nil => cases h; exact h'
  | cons i is ih =>
    obtain ⟨v, w, hexec, hrsp, -⟩ := exec_answers s i
    simp only [runCommands, hexec, hrsp, Option.map_eq_some_iff] at h
    obtain ⟨⟨rs', u'⟩, hrun, heq⟩ := h
    cases heq
    exact runCommands_cons hexec hrsp (ih hrun)

end Sys2Proof.Machine

namespace Sys2Proof.Proofs

open Sys2Proof.Machine

/-- Settles O13, field by field from the response word's laws. -/
theorem outputResponseFields : Obligations.OutputResponseFields := by
  intro t b
  have htags : t.carriesSymbols = true ↔ t = .seed ∨ t = .data ∨ t = .check ∨ t = .map := by cases t <;> decide
  refine ⟨rspCode_emitWord t b, rspOv_emitWord t b, rspTag_emitWord t b, rspByte_emitWord t b, rspZero_emitWord t b,
    by rw [rspSv_emitWord, htags], fun h => ?symbols, fun h => ?noSymbols⟩
  case symbols => exact rspSyms_emitWord_of_carriesSymbols (by rwa [rspSv_emitWord] at h) b
  case noSymbols =>
    rw [rspSv_emitWord] at h
    rw [rspSymHi_emitWord, rspSymLo_emitWord, h]
    exact ⟨rfl, rfl⟩

/-- Settles O15: a command that is not rejected answers by its tag in the table (`CompletesAs`). -/
theorem outputTagsFollowTheTable : Obligations.OutputTagsFollowTheTable := by
  refine ⟨rfl, fun i s t w h hrsp hw => ?_⟩
  obtain ⟨w', hrsp', hanswer⟩ := (completesAs_of_rspCode h hrsp hw).answer
  obtain rfl : w' = w := Option.some.inj (hrsp'.symm.trans hrsp)
  generalize outputTag i = tag at hanswer
  cases hanswer with
  | output tag b => exact ⟨rspOv_emitWord tag b, rspTag_emitWord tag b⟩
  | empty => exact rspOv_emptyWord

/-- Settles O18. -/
theorem completionKeepsErrorRegisters : Obligations.CompletionKeepsErrorRegisters :=
  fun _ _ _ _ h hrsp hw => (completesAs_of_rspCode h hrsp hw).errors

/-- Settles O19, by induction on the commands: each keeps the error (`exec_keeps_error`). -/
theorem errorFlagIsSticky : Obligations.ErrorFlagIsSticky := by
  intro cmds
  induction cmds with
  | nil => exact fun s hf hc _ _ => ⟨[], s, rfl, hf, hc⟩
  | cons i is ih =>
    intro s hf hc hclr hrst
    rw [List.mem_cons, not_or] at hclr hrst
    obtain ⟨u, w, hexec, hrsp, -⟩ := exec_answers s i
    obtain ⟨hf', hc'⟩ := exec_keeps_error hexec hf hc (Ne.symm hclr.1) (Ne.symm hrst.1)
    obtain ⟨rs, t, hrun, ht⟩ := ih u hf' hc' hclr.2 hrst.2
    exact ⟨w :: rs, t, runCommands_cons hexec hrsp hrun, ht⟩

/-- Settles O47. -/
theorem registersKeepTheirWriters : Obligations.RegistersKeepTheirWriters := by
  intro i s t h
  obtain ⟨hsr, hks, hcnt, hzs, hovf, hres, hcfg, hpbuf, hin, hedges, hepoch⟩ := exec_keepsUnlisted h
  exact ⟨hsr, hks, hcnt, hzs, hovf, hres, hcfg, hpbuf, hin, hedges, hepoch⟩

end Sys2Proof.Proofs
end

section
/-! PROOFS. What a command does not read (spec 10_state.md R13, R26): changing a register that it neither reads nor
writes changes that register alone in its next state. -/

namespace Sys2Proof.Machine

/-- A change of SR, of PBUF with its stamp, and of the host's inputs with the edge count. -/
structure StateEdit where
  sr : Byte → Byte := id
  pbuf : Memory → Memory := id
  pbufEpoch : Nat → Nat := id
  inputs : List Pins → List Pins := id
  edges : Nat → Nat := id

/-- The state with the change made. -/
def State.edit (s : State) (f : StateEdit) : State :=
  { s with
    sr := f.sr s.sr, pbuf := f.pbuf s.pbuf, pbufEpoch := f.pbufEpoch s.pbufEpoch
    inputs := f.inputs s.inputs, edges := f.edges s.edges }

/-- The mnemonics of the frame engine's commands, which have no part in SR (R13). -/
def frameMnemonics : List String := ["ENCS", "ENCB", "ENCE", "DECB", "DECE", "DECS", "DEC1", "RDPAY"]

variable {i : Instr} {s t : State} {f : StateEdit}

theorem decodeReason_edit (d : Byte) (s : State) (f : StateEdit) : decodeReason d (s.edit f) = decodeReason d s := rfl

theorem endFrame_edit (r : Rsn) (s : State) (f : StateEdit) : endFrame r (s.edit f) = (endFrame r s).edit f := by
  cases r <;> rfl

/-- A command goes the same way in the changed state: no command reads the host's inputs or the counters, a frame
command neither reads nor writes SR, and only DECB and RDPAY use PBUF. -/
theorem exec_edit (h : exec i s = .next t) (hsr : f.sr = id ∨ i.mnemonic ∈ frameMnemonics)
    (hpbuf : (f.pbuf = id ∧ f.pbufEpoch = id) ∨ i.mnemonic ∉ ["DECB", "RDPAY"]) :
    exec i (s.edit f) = .next (t.edit f) := by
  obtain ⟨fsr, fpbuf, fepoch, fin, fedges⟩ := f
  cases i with
  | nop | clrerr | abort => cases emitNone_next.mp h; rfl
  | map d => cases emit_next.mp h; rfl
  | srst | sset _ =>
    obtain rfl : fsr = id := hsr.resolve_right (by simp [Instr.mnemonic, frameMnemonics])
    cases emitNone_next.mp h; rfl
  | sstep _ | schk _ =>
    obtain rfl : fsr = id := hsr.resolve_right (by simp [Instr.mnemonic, frameMnemonics])
    cases emit_next.mp h; rfl
  | encs d =>
    obtain ⟨hm, rfl⟩ | ⟨hm, hd, rfl⟩ | ⟨hm, hd, rfl⟩ := execEncs_next.mp h
    · exact execEncs_next.mpr (.inl ⟨hm, rfl⟩)
    · exact execEncs_next.mpr (.inr (.inl ⟨hm, hd, rfl⟩))
    · exact execEncs_next.mpr (.inr (.inr ⟨hm, hd, rfl⟩))
  | encb d =>
    obtain ⟨hm, rfl⟩ | ⟨hm, hn, rfl⟩ | ⟨hm, hn, rfl⟩ := encbAt_next.mp h
    · exact encbAt_next.mpr (.inl ⟨hm, rfl⟩)
    · exact encbAt_next.mpr (.inr (.inl ⟨hm, hn, rfl⟩))
    · exact encbAt_next.mpr (.inr (.inr ⟨hm, hn, rfl⟩))
  | ence =>
    obtain ⟨hm, rfl⟩ | ⟨hm, h0, rfl⟩ | ⟨hm, h0, hl, rfl⟩ | ⟨hm, h0, hl, rfl⟩ := execEnce_next.mp h
    · exact execEnce_next.mpr (.inl ⟨hm, rfl⟩)
    · exact execEnce_next.mpr (.inr (.inl ⟨hm, h0, rfl⟩))
    · exact execEnce_next.mpr (.inr (.inr (.inl ⟨hm, h0, hl, rfl⟩)))
    · exact execEnce_next.mpr (.inr (.inr (.inr ⟨hm, h0, hl, rfl⟩)))
  | decs d =>
    obtain ⟨hm, rfl⟩ | ⟨hm, rfl⟩ := execDecs_next.mp h
    · exact execDecs_next.mpr (.inl ⟨hm, rfl⟩)
    · exact execDecs_next.mpr (.inr ⟨hm, rfl⟩)
  | decb d =>
    obtain ⟨rfl, rfl⟩ : fpbuf = id ∧ fepoch = id := hpbuf.resolve_right (by simp [Instr.mnemonic])
    obtain ⟨hm, rfl⟩ | ⟨hm, hn, rfl⟩ | ⟨hm, hn, u, hu, rfl⟩ := decbAt_next.mp h
    · exact decbAt_next.mpr (.inl ⟨hm, rfl⟩)
    · exact decbAt_next.mpr (.inr (.inl ⟨hm, hn, rfl⟩))
    · obtain ⟨-, rfl⟩ := storePayload_ok hu
      exact decbAt_next.mpr (.inr (.inr ⟨hm, hn, _, decbAt_nMax_ok _ hn, rfl⟩))
  | dece d =>
    obtain ⟨hm, rfl⟩ | ⟨hm, rfl⟩ := execDece_next.mp h
    · exact execDece_next.mpr (.inl ⟨hm, rfl⟩)
    · refine execDece_next.mpr (.inr ⟨hm, ?_⟩)
      rw [decodeReason_edit, endFrame_edit]
      rfl
  | dec1 d =>
    obtain ⟨hm, rfl⟩ | ⟨hm, rfl⟩ := (execDec1_next (d := d)).mp h
    · exact (execDec1_next (d := d)).mpr (.inl ⟨hm, rfl⟩)
    · exact (execDec1_next (d := d)).mpr (.inr ⟨hm, rfl⟩)
  | cfgw d =>
    obtain ⟨hm, rfl⟩ | ⟨hm, hd, rfl⟩ | ⟨hm, hd, rfl⟩ := cfgwAt_next.mp h
    · exact cfgwAt_next.mpr (.inl ⟨hm, rfl⟩)
    · exact cfgwAt_next.mpr (.inr (.inl ⟨hm, hd, rfl⟩))
    · exact cfgwAt_next.mpr (.inr (.inr ⟨hm, hd, rfl⟩))
  | rdreg d =>
    obtain rfl : fsr = id := hsr.resolve_right (by simp [Instr.mnemonic, frameMnemonics])
    obtain ⟨v, hv, rfl⟩ | ⟨hv, rfl⟩ := rdregAt_next.mp h
    · exact rdregAt_next.mpr (.inl ⟨v, hv, rfl⟩)
    · exact rdregAt_next.mpr (.inr ⟨hv, rfl⟩)
  | rdpay d =>
    obtain ⟨rfl, rfl⟩ : fpbuf = id ∧ fepoch = id := hpbuf.resolve_right (by simp [Instr.mnemonic])
    obtain ⟨hr, rfl⟩ | ⟨hr, hd, rfl⟩ | ⟨hr, hd, v, hv, rfl⟩ := rdpayAt_next.mp h
    · exact rdpayAt_next.mpr (.inl ⟨hr, rfl⟩)
    · exact rdpayAt_next.mpr (.inr (.inl ⟨hr, hd, rfl⟩))
    · exact rdpayAt_next.mpr (.inr (.inr ⟨hr, hd, v, hv, rfl⟩))

/-! Reads (20_memory.md R46) -/

/-- A read's answer does not depend on the response register, and repeating it loads the same one. -/
theorem exec_rdreg_idempotent {d : Byte} (h : exec (.rdreg d) s = .next t) : exec (.rdreg d) t = .next t := by
  obtain ⟨v, hv, rfl⟩ | ⟨hv, rfl⟩ := rdregAt_next.mp h
  · exact rdregAt_next.mpr (.inl ⟨v, hv, rfl⟩)
  · exact rdregAt_next.mpr (.inr ⟨readRegister_eq_none_iff.mpr (readRegister_eq_none_iff.mp hv), rfl⟩)

theorem exec_rdpay_idempotent {d : Byte} (h : exec (.rdpay d) s = .next t) : exec (.rdpay d) t = .next t := by
  obtain ⟨hr, rfl⟩ | ⟨hr, hd, rfl⟩ | ⟨hr, hd, v, hv, rfl⟩ := rdpayAt_next.mp h
  · exact rdpayAt_next.mpr (.inl ⟨hr, rfl⟩)
  · exact rdpayAt_next.mpr (.inr (.inl ⟨hr, hd, rfl⟩))
  · exact rdpayAt_next.mpr (.inr (.inr ⟨hr, hd, v, hv, rfl⟩))

end Sys2Proof.Machine

namespace Sys2Proof.Proofs

open Sys2Proof.Machine

/-- Settles O23: a change of SR alone goes through a frame command (`exec_edit`). -/
theorem frameEngineIgnoresSr : Obligations.FrameEngineIgnoresSr := by
  intro i s x hi
  obtain ⟨t, w, hexec, -⟩ := exec_answers s i
  have hkeeps : i.mnemonic ∉ ["SSET", "SSTEP", "SCHK", "SRST"] := by cases i <;> simp [Instr.mnemonic] at hi ⊢
  exact ⟨t, hexec, (exec_keepsUnlisted hexec).sr hkeeps,
    exec_edit (f := { sr := fun _ => x }) hexec (.inr hi) (.inl ⟨rfl, rfl⟩)⟩

/-- Settles O45. -/
theorem readsAreIdempotent : Obligations.ReadsAreIdempotent := by
  intro d i hi s t h
  obtain rfl | rfl : i = .rdreg d ∨ i = .rdpay d := by simpa using hi
  · exact exec_rdreg_idempotent h
  · exact exec_rdpay_idempotent h

end Sys2Proof.Proofs
end

section
/-! PROOFS. Old contents of PBUF (spec 10_state.md R26, R29 (a)): no response depends on an entry that the decode in
progress, or the last valid one, has not written. -/

namespace Sys2Proof.Machine

variable {i : Instr} {s t : State} {m : Memory} {d : Byte}

/-- How many entries of PBUF, from 0 on, hold bytes of the decode in progress or of the last valid payload. -/
def readableBytes (s : State) : Nat :=
  if s.mode = .dec then s.cnt.toNat else if s.res = .valid then s.plen.toNat else 0

/-- PBUF and another buffer `m` hold the same written bytes where they count; a decode in progress has no result. -/
structure AgreesOnReadable (s : State) (m : Memory) : Prop where
  dec_res : s.mode = .dec → s.res ≠ .valid
  written : ∀ i < readableBytes s, ∃ v, readByte s.pbuf i = some v ∧ readByte m i = some v

theorem readableBytes_of_dec (h : s.mode = .dec) : readableBytes s = s.cnt.toNat := if_pos h

theorem readableBytes_of_valid (h : s.mode ≠ .dec) (hr : s.res = .valid) : readableBytes s = s.plen.toNat := by
  rw [readableBytes, if_neg h, if_pos hr]

theorem readableBytes_of_not (h : s.mode ≠ .dec) (hr : s.res ≠ .valid) : readableBytes s = 0 := by
  rw [readableBytes, if_neg h, if_neg hr]

theorem readableBytes_congr (hm : t.mode = s.mode) (hc : t.cnt = s.cnt) (hr : t.res = s.res) (hp : t.plen = s.plen) :
    readableBytes t = readableBytes s := by
  rw [readableBytes, readableBytes, hm, hc, hr, hp]

/-- From `s` to `t` no more bytes became readable, and a decode in progress has no result. -/
def NoMoreReadable (s t : State) : Prop := (t.mode = .dec → t.res ≠ .valid) ∧ readableBytes t ≤ readableBytes s

theorem noMoreReadable_of_eq (hs : s.mode = .dec → s.res ≠ .valid) (hm : t.mode = s.mode) (hc : t.cnt = s.cnt)
    (hr : t.res = s.res) (hp : t.plen = s.plen) : NoMoreReadable s t :=
  ⟨by rwa [hm, hr], (readableBytes_congr hm hc hr hp).le⟩

/-- Outside a decode before and after, with the same result, CNT does not count. -/
theorem noMoreReadable_of_not_dec (hs : s.mode ≠ .dec) (ht : t.mode ≠ .dec) (hr : t.res = s.res)
    (hp : t.plen = s.plen) :
    NoMoreReadable s t :=
  ⟨fun h => absurd h ht, by rw [readableBytes, readableBytes, if_neg hs, if_neg ht, hr, hp]⟩

/-- Without a decode and without a valid result nothing is readable. -/
theorem noMoreReadable_of_none (ht : t.mode ≠ .dec) (hr : t.res ≠ .valid) : NoMoreReadable s t :=
  ⟨fun h => absurd h ht, (readableBytes_of_not ht hr).trans_le (Nat.zero_le _)⟩

/-- Only DECB makes more of PBUF readable. -/
theorem exec_noMoreReadable (hs : s.mode = .dec → s.res ≠ .valid) (h : exec i s = .next t) (hi : i.mnemonic ≠ "DECB") :
    NoMoreReadable s t := by
  have hrej (e : ErrCode) : NoMoreReadable s (s.rejected e) := noMoreReadable_of_eq hs rfl rfl rfl rfl
  cases i with
  | nop | clrerr | sset _ | sstep _ | schk _ | map _ | cfgw _ | rdreg _ | rdpay _ =>
    have hkeeps := exec_keepsUnlisted h
    obtain ⟨hres, -, hplen⟩ := hkeeps.result (by simp [Instr.mnemonic])
    exact noMoreReadable_of_eq hs (exec_keeps_mode h (by simp [Instr.mnemonic]))
      (hkeeps.cnt (by simp [Instr.mnemonic])) hres hplen
  | decb _ => exact absurd rfl hi
  | abort =>
    cases emitNone_next.mp h
    by_cases hm : s.mode = .dec
    · exact noMoreReadable_of_none nofun (hs hm)
    · exact noMoreReadable_of_not_dec hm nofun rfl rfl
  | srst => cases emitNone_next.mp h; exact noMoreReadable_of_none nofun nofun
  | encs d =>
    obtain ⟨-, rfl⟩ | ⟨-, -, rfl⟩ | ⟨hm, -, rfl⟩ := execEncs_next.mp h
    · exact hrej _
    · exact hrej _
    · exact noMoreReadable_of_not_dec (hm ▸ nofun) nofun rfl rfl
  | encb d =>
    obtain ⟨-, rfl⟩ | ⟨-, -, rfl⟩ | ⟨hm, -, rfl⟩ := encbAt_next.mp h
    · exact hrej _
    · exact hrej _
    · exact noMoreReadable_of_not_dec (hm ▸ nofun) (hm ▸ nofun) rfl rfl
  | ence =>
    obtain ⟨-, rfl⟩ | ⟨-, -, rfl⟩ | ⟨-, -, -, rfl⟩ | ⟨hm, -, -, rfl⟩ := execEnce_next.mp h
    · exact hrej _
    · exact hrej _
    · exact hrej _
    · exact noMoreReadable_of_not_dec (hm ▸ nofun) nofun rfl rfl
  | decs d =>
    obtain ⟨-, rfl⟩ | ⟨-, rfl⟩ := execDecs_next.mp h
    · exact hrej _
    · exact ⟨fun _ => nofun, Nat.zero_le _⟩
  | dece d =>
    obtain ⟨-, rfl⟩ | ⟨hm, rfl⟩ := execDece_next.mp h
    · exact hrej _
    · by_cases hr : decodeReason d s = .noReason
      · rw [hr, endFrame_valid]
        exact ⟨nofun, (readableBytes_of_dec hm).ge⟩
      · rw [endFrame_invalid s hr]
        exact noMoreReadable_of_none nofun nofun
  | dec1 d =>
    obtain ⟨-, rfl⟩ | ⟨hm, rfl⟩ := (execDec1_next (d := d)).mp h
    · exact hrej _
    · exact noMoreReadable_of_none (show s.mode ≠ .dec from hm ▸ nofun) nofun

/-- The state with another buffer in PBUF, and its stamp. -/
def State.withPbuf (s : State) (m : Memory) (epoch : Nat) : State := { s with pbuf := m, pbufEpoch := epoch }

/-- A command other than DECB goes the same way with a buffer that agrees: RDPAY reads only where both hold a byte. -/
theorem exec_withPbuf {epoch : Nat} (ha : AgreesOnReadable s m) (h : exec i s = .next t) (hi : i.mnemonic ≠ "DECB") :
    exec i (s.withPbuf m epoch) = .next (t.withPbuf m epoch) := by
  by_cases hp : i.mnemonic = "RDPAY"
  · obtain ⟨d, rfl⟩ : ∃ d, i = .rdpay d := by cases i <;> simp [Instr.mnemonic] at hp ⊢
    obtain ⟨hr, rfl⟩ | ⟨hr, hd, rfl⟩ | ⟨hr, hd, v, hv, rfl⟩ := rdpayAt_next.mp h
    · exact rdpayAt_next.mpr (.inl ⟨hr, rfl⟩)
    · exact rdpayAt_next.mpr (.inr (.inl ⟨hr, hd, rfl⟩))
    · have hm : s.mode ≠ .dec := fun hm => ha.dec_res hm hr
      obtain ⟨u, hu, hu'⟩ := ha.written d.toNat (by rw [readableBytes_of_valid hm hr]; exact hd)
      rw [rdpayAt_nMax_ok hd, payloadValue_of_written hu] at hv
      refine rdpayAt_next.mpr (.inr (.inr ⟨hr, hd, v, ?_, rfl⟩))
      rw [rdpayAt_nMax_ok (s := s.withPbuf m epoch) hd, payloadValue_of_written (s := s.withPbuf m epoch) hu', hv]
  · exact exec_edit (f := { pbuf := fun _ => m, pbufEpoch := fun _ => epoch }) h (.inl rfl)
      (.inr (by simp [hi, hp]))

/-- One command keeps the agreement and answers alike. -/
theorem exec_agreesOnReadable (ha : AgreesOnReadable s m) (epoch : Nat) (h : exec i s = .next t) :
    ∃ m', exec i (s.withPbuf m epoch) = .next (t.withPbuf m' epoch) ∧ AgreesOnReadable t m' := by
  by_cases hi : i.mnemonic = "DECB"
  · obtain ⟨d, rfl⟩ : ∃ d, i = .decb d := by cases i <;> simp [Instr.mnemonic] at hi ⊢
    obtain ⟨hm, rfl⟩ | ⟨hm, hn, rfl⟩ | ⟨hm, hn, u, hu, rfl⟩ := decbAt_next.mp h
    · exact ⟨m, decbAt_next.mpr (.inl ⟨hm, rfl⟩), ha.dec_res, ha.written⟩
    · exact ⟨m, decbAt_next.mpr (.inr (.inl ⟨hm, hn, rfl⟩)), ha.dec_res, ha.written⟩
    · obtain ⟨-, rfl⟩ := storePayload_ok hu
      refine ⟨writeByte m s.cnt.toNat (d ^^^ ksNext s.ks),
        decbAt_next.mpr (.inr (.inr ⟨hm, hn, _, decbAt_nMax_ok _ hn, rfl⟩)), ha.dec_res, fun a hlt => ?_⟩
      have hlt : a < (s.cnt + 1).toNat := hlt.trans_eq (if_pos hm)
      rw [toNat_add_one_of_ne_nMax hn] at hlt
      simp only [State.respond_pbuf, State.absorb_pbuf, readByte_writeByte]
      by_cases hlast : a = s.cnt.toNat
      · exact ⟨_, if_pos hlast, if_pos hlast⟩
      · rw [if_neg hlast, if_neg hlast]
        exact ha.written a (by rw [readableBytes_of_dec hm]; omega)
  · obtain ⟨hres, hle⟩ := exec_noMoreReadable ha.dec_res h hi
    refine ⟨m, exec_withPbuf ha h hi, hres, fun a hlt => ?_⟩
    rw [(exec_keepsUnlisted h).pbuf hi]
    exact ha.written a (hlt.trans_le hle)

/-- Any sequence of commands answers alike with a buffer that agrees. -/
theorem runCommands_withPbuf (cmds : List Instr) (ha : AgreesOnReadable s m) (epoch : Nat) :
    ∃ rs t t', runCommands cmds s = some (rs, t) ∧ runCommands cmds (s.withPbuf m epoch) = some (rs, t') := by
  induction cmds generalizing s m with
  | nil => exact ⟨[], s, _, rfl, rfl⟩
  | cons i is ih =>
    obtain ⟨u, w, hexec, hrsp, -⟩ := exec_answers s i
    obtain ⟨m', hexec', ha'⟩ := exec_agreesOnReadable ha epoch hexec
    obtain ⟨rs, t, t', hrun, hrun'⟩ := ih ha'
    exact ⟨w :: rs, t, t', runCommands_cons hexec hrsp hrun, runCommands_cons hexec' hrsp hrun'⟩

end Sys2Proof.Machine

namespace Sys2Proof.Proofs

open Sys2Proof.Machine

/-- Settles O48: with no valid result and no decode in progress nothing is readable, so every buffer agrees. -/
theorem oldPayloadBufferIsUnobservable : Obligations.OldPayloadBufferIsUnobservable := by
  intro cmds s m epoch hres hmode
  refine runCommands_withPbuf cmds ⟨fun h => absurd h hmode, fun a hlt => ?_⟩ epoch
  rw [readableBytes_of_not hmode hres] at hlt
  exact absurd hlt (Nat.not_lt_zero a)

end Sys2Proof.Proofs
end

section
/-! PROOFS. One rising edge (spec 10_state.md R30 to R33, 20_memory.md R49): what each kind of edge does, and that a
host that presents commands back to back gets the command sequence and its responses. -/

namespace Sys2Proof.Machine

variable {s t : State} {p : Pins} {rest : List Pins} {i : Instr}

/-- The sample of an edge is used up, and the edge counted. -/
theorem tick_of_inputs (h : s.inputs = p :: rest) : s.tick = { s with inputs := rest, edges := s.edges + 1 } := by
  rw [State.tick, h, List.tail_cons]

/-- An edge that accepts a command's word runs the command (R31). -/
theorem step_of_command (hin : s.inputs = p :: rest) (hi : decode p.cmdData = .ok i) (hrst : p.rst = false)
    (hvalid : p.cmdValid = true) (hready : s.rsp = none ∨ p.rspReady = true) :
    step s = exec i { s with inputs := rest, edges := s.edges + 1 } := by
  have hpins : s.pins = p := State.pins_cons hin
  have hacc : accepts s.pins s = true := accepts_iff.mpr (hpins ▸ ⟨hrst, hvalid, hready⟩)
  rw [step_of_accepts hacc, hpins, acceptWord_of_ok exec s.tick hi, tick_of_inputs hin]

/-- An edge that accepts no command holds the state, and drops a response that is taken (R31, R32). -/
theorem step_of_no_command (hin : s.inputs = p :: rest) (hrst : p.rst = false)
    (hno : p.cmdValid = false ∨ s.rsp ≠ none ∧ p.rspReady = false) :
    step s = .next { s with
      inputs := rest, edges := s.edges + 1, rsp := if p.rspReady then none else s.rsp } := by
  have hpins : s.pins = p := State.pins_cons hin
  have hacc : accepts s.pins s = false := by
    rw [Bool.eq_false_iff, ne_eq, accepts_iff, hpins]
    rintro ⟨-, hvalid, hready⟩
    obtain hno | ⟨hrsp, hno⟩ := hno
    · simp [hvalid] at hno
    · exact hready.elim hrsp (by simp [hno])
  rw [step_of_not_accepts (hpins ▸ hrst) hacc, hpins, tick_of_inputs hin]

/-- An edge at which the host drives nothing (R222). -/
theorem step_of_inputs_nil (h : s.inputs = []) : step s = .next { s with edges := s.edges + 1 } := by
  have hpins : s.pins = Pins.quiet := State.pins_nil h
  have hacc : accepts s.pins s = false := by rw [hpins]; rfl
  rw [step_of_not_accepts (by rw [hpins]; rfl) hacc, hpins, State.tick, h, List.tail_nil, ← h]
  rfl

/-- Whatever the host drives, the edge gives a next state (R211, R215, R222). -/
theorem step_completes (s : State) : ∃ t, step s = .next t := by
  cases hrst : s.pins.rst with
  | true => exact ⟨_, step_of_rst hrst⟩
  | false =>
    cases hacc : accepts s.pins s with
    | false => exact ⟨_, step_of_not_accepts hrst hacc⟩
    | true =>
      rw [step_of_accepts hacc]
      cases hdec : decode s.pins.cmdData with
      | error e => exact ⟨_, acceptWord_of_error exec s.tick hdec⟩
      | ok i =>
        obtain ⟨t, w, hexec, -⟩ := exec_answers s.tick i
        exact ⟨t, (acceptWord_of_ok exec s.tick hdec).trans hexec⟩

/-! Commands back to back -/

/-- The state `s` before edge number `n`, with the host about to present the commands one an edge, and then to collect
the last response. -/
def State.presenting (s : State) (cmds : List Instr) (n : Nat) : State :=
  { s with inputs := cmds.map (fun i => Pins.command (encode i)) ++ [Pins.collect], edges := n }

/-- The next edge runs the next command, and the host takes the response before it. -/
theorem step_presenting_cons {is : List Instr} (n : Nat) (h : exec i s = .next t) :
    step (s.presenting (i :: is) n) = .next (t.presenting is (n + 1)) := by
  have hstep : step (s.presenting (i :: is) n) = exec i (s.presenting is (n + 1)) :=
    step_of_command rfl (decode_encode i) rfl rfl (.inr rfl)
  rw [hstep]
  exact exec_edit (f := { inputs := fun _ => (s.presenting is n).inputs, edges := fun _ => n + 1 }) h (.inl rfl)
    (.inl ⟨rfl, rfl⟩)

/-- The edge after the last command collects its response. -/
theorem step_presenting_nil (s : State) (n : Nat) :
    step (s.presenting [] n) = .next { s with inputs := [], edges := n + 1, rsp := none } :=
  step_of_no_command (s := s.presenting [] n) (p := Pins.collect) rfl rfl (.inl rfl)

theorem delivered_presenting (s : State) (cmds : List Instr) (n : Nat) : delivered (s.presenting cmds n) = s.rsp := by
  cases cmds <;> rfl

theorem runEdges_succ {k : Nat} (h : step s = .next t) : runEdges (k + 1) s = runEdges k t := by
  rw [runEdges, h]

theorem deliveries_succ {k : Nat} (h : step s = .next t) :
    deliveries (k + 1) s = (delivered s).toList ++ deliveries k t := by
  rw [deliveries, h]

/-- The edges realise the command sequence; the response that waits first is delivered first. -/
theorem runEdges_presenting (cmds : List Instr) (s : State) (n : Nat) :
    ∃ rs t, runCommands cmds s = some (rs, t) ∧ rs.length = cmds.length ∧
      runEdges (cmds.length + 1) (s.presenting cmds n) =
        .next { t with inputs := [], edges := n + (cmds.length + 1), rsp := none } ∧
      deliveries (cmds.length + 1) (s.presenting cmds n) = s.rsp.toList ++ rs := by
  induction cmds generalizing s n with
  | nil =>
    refine ⟨[], s, rfl, rfl, ?_, ?_⟩
    · rw [List.length_nil, runEdges_succ (step_presenting_nil s n)]; rfl
    · rw [List.length_nil, deliveries_succ (step_presenting_nil s n), delivered_presenting]; rfl
  | cons i is ih =>
    obtain ⟨u, w, hexec, hrsp, -⟩ := exec_answers s i
    obtain ⟨rs, t, hrun, hlen, hedges, hdeliv⟩ := ih u (n + 1)
    have hstep := step_presenting_cons (is := is) n hexec
    refine ⟨w :: rs, t, runCommands_cons hexec hrsp hrun, congrArg (· + 1) hlen, ?_, ?_⟩
    · rw [List.length_cons, runEdges_succ hstep, hedges, Nat.add_right_comm n 1, Nat.add_assoc n]
    · rw [List.length_cons, deliveries_succ hstep, delivered_presenting, hdeliv, hrsp]; rfl

end Sys2Proof.Machine

namespace Sys2Proof.Proofs

open Sys2Proof.Machine

/-- Settles O56. -/
theorem theBlockNeverStops : Obligations.TheBlockNeverStops := step_completes

/-- Settles O53. -/
theorem stepRunsTheDecodedCommand : Obligations.StepRunsTheDecodedCommand := by
  intro s p rest i hin hi hrst hvalid hready
  have hstep := step_of_command hin hi hrst hvalid hready
  obtain ⟨t, w, hexec, hrsp, -⟩ := exec_answers { s with inputs := rest, edges := s.edges + 1 } i
  exact ⟨hstep, t, w, hstep.trans hexec, hrsp⟩

/-- Settles O54. -/
theorem edgesWithoutACommandHoldTheState : Obligations.EdgesWithoutACommandHoldTheState := by
  refine ⟨fun s p rest w hin hrst hrsp hready => ?held, fun s p rest hin hrst hvalid => ?noCommand,
    fun s hin => step_of_inputs_nil hin, fun s p => ⟨rfl, ?rspValid, fun w hw => ?rspData⟩⟩
  case held =>
    rw [step_of_no_command hin hrst (.inr ⟨hrsp ▸ nofun, hready⟩), hready, if_neg Bool.false_ne_true]
  case noCommand => exact step_of_no_command hin hrst (.inl hvalid)
  case rspValid => exact Option.isSome_iff_ne_none
  case rspData => rw [outputs, hw, Option.getD_some]

/-- Settles O55: the reset edge leaves `State.reset`, but for the host's coming samples and the model's counters. -/
theorem resetEdgeTakesEveryResetValue : Obligations.ResetEdgeTakesEveryResetValue := by
  intro s p rest hin hrst
  have hpins : s.pins = p := State.pins_cons hin
  have hready : (outputs p s).cmdReady = false := by rw [outputs, cmdReady, hrst]; rfl
  refine ⟨hready, resetEdge s.tick, step_of_rst (hpins ▸ hrst), ?_⟩
  rw [tick_of_inputs hin]
  exact ⟨rfl, rfl, rfl, rfl, rfl, rfl, rfl, rfl, rfl, rfl, rfl, rfl, rfl, rfl, rfl⟩

/-- Settles O57: with no response waiting, what is delivered is the sequence's own responses. -/
theorem edgesRealiseTheCommandSequence : Obligations.EdgesRealiseTheCommandSequence := by
  intro cmds s hrsp
  obtain ⟨rs, t, hrun, hlen, hedges, hdeliv⟩ := runEdges_presenting cmds s s.edges
  exact ⟨rs, t, hrun, hlen, hedges, hdeliv.trans (by rw [hrsp]; rfl)⟩

end Sys2Proof.Proofs
end

section
/-! PROOFS. The invariants of the registers and of PBUF (spec 10_state.md R17 to R26) for a block of capacity `n`:
each command's branches keep them, and so does every rising edge. -/

namespace Sys2Proof.Machine

variable {n d : Byte} {s t : State}

theorem ksNext_eq_zero_iff (k : Byte) : ksNext k = 0 ↔ k = 0 := ksNext_iterate_eq_zero_iff 1 k

theorem zero_le_byte (n : Byte) : 0 ≤ n := BitVec.le_def.mpr (Nat.zero_le _)

/-- A count within the capacity that has not reached it has room for one more, and does not wrap. -/
theorem add_one_of_le_of_ne {c : Byte} (h : c ≤ n) (hne : c ≠ n) :
    c < n ∧ c + 1 ≤ n ∧ (c + 1).toNat = c.toNat + 1 := by
  refine ⟨?_, ?_, ?_⟩ <;> bv_omega

theorem coherentAt_reset (n : Byte) : CoherentAt n State.reset where
  pbuf_wf := rfl
  cnt_le := zero_le_byte n
  cfg_le := zero_le_byte n
  plen_valid := nofun
  plen_other _ := rfl
  rsn_iff := by decide
  err_iff := by decide
  dec_res := nofun
  enc_flags := nofun
  enc_ks := nofun
  dec_zs := nofun
  dec_written := nofun
  valid_written := nofun

/-! The invariants say nothing of SR, the response, the host's inputs and the counters. -/

theorem coherentAt_respond (h : CoherentAt n s) (w : RspWord) : CoherentAt n (s.respond w) := { h with }

theorem coherentAt_tick (h : CoherentAt n s) : CoherentAt n s.tick := { h with }

theorem coherentAt_rejected (h : CoherentAt n s) {e : ErrCode} (he : e ≠ .noError) : CoherentAt n (s.rejected e) :=
  { h with err_iff := ⟨fun _ => he, fun _ => rfl⟩ }

/-! The commands that no state rejects -/

theorem coherentAt_clearErrors (h : CoherentAt n s) : CoherentAt n s.clearErrors :=
  { h with err_iff := by simp }

theorem coherentAt_abort (h : CoherentAt n s) : CoherentAt n { s.clearCounts with mode := .idle } :=
  { h with
    cnt_le := zero_le_byte n, dec_res := nofun, enc_flags := nofun, enc_ks := nofun, dec_zs := nofun
    dec_written := nofun }

theorem coherentAt_resetRegisters (h : CoherentAt n s) : CoherentAt n s.resetRegisters :=
  { coherentAt_reset n with pbuf_wf := h.pbuf_wf, dec_written := nofun, valid_written := nofun }

/-! The encoder -/

theorem execEncs_coherentAt (h : CoherentAt n s) (hnext : execEncs d s = .next t) : CoherentAt n t := by
  obtain ⟨-, rfl⟩ | ⟨-, -, rfl⟩ | ⟨-, hd, rfl⟩ := execEncs_next.mp hnext
  · exact coherentAt_rejected h nofun
  · exact coherentAt_rejected h nofun
  · refine coherentAt_respond ?_ _
    exact { h with
      cnt_le := zero_le_byte n, dec_res := nofun, enc_flags := fun _ => ⟨rfl, rfl⟩, enc_ks := fun _ => hd
      dec_zs := nofun, dec_written := nofun }

/-- R106: a nonzero keystream state stays nonzero. -/
theorem encbAt_coherentAt (h : CoherentAt n s) (hnext : encbAt n d s = .next t) : CoherentAt n t := by
  obtain ⟨-, rfl⟩ | ⟨-, -, rfl⟩ | ⟨hm, hn, rfl⟩ := encbAt_next.mp hnext
  · exact coherentAt_rejected h nofun
  · exact coherentAt_rejected h nofun
  · have hdec : s.mode ≠ .dec := hm ▸ nofun
    obtain ⟨-, hle, -⟩ := add_one_of_le_of_ne h.cnt_le hn
    refine coherentAt_respond ?_ _
    exact { h with
      cnt_le := hle
      enc_ks := fun _ => mt (ksNext_eq_zero_iff s.ks).mp (h.enc_ks hm)
      dec_zs := fun hm' => absurd hm' hdec
      dec_written := fun hm' => absurd hm' hdec }

theorem execEnce_coherentAt (h : CoherentAt n s) (hnext : execEnce s = .next t) : CoherentAt n t := by
  obtain ⟨-, rfl⟩ | ⟨-, -, rfl⟩ | ⟨-, -, -, rfl⟩ | ⟨-, -, -, rfl⟩ := execEnce_next.mp hnext
  · exact coherentAt_rejected h nofun
  · exact coherentAt_rejected h nofun
  · exact coherentAt_rejected h nofun
  · refine coherentAt_respond ?_ _
    exact { h with dec_res := nofun, enc_flags := nofun, enc_ks := nofun, dec_zs := nofun, dec_written := nofun }

/-! The decoder -/

theorem execDecs_coherentAt (h : CoherentAt n s) (hnext : execDecs d s = .next t) : CoherentAt n t := by
  obtain ⟨-, rfl⟩ | ⟨-, rfl⟩ := execDecs_next.mp hnext
  · exact coherentAt_rejected h nofun
  · refine coherentAt_respond ?_ _
    exact { h with
      cnt_le := zero_le_byte n, plen_valid := nofun, plen_other := fun _ => rfl, rsn_iff := by simp
      dec_res := fun _ => rfl, enc_flags := nofun, enc_ks := nofun, dec_zs := fun _ => beq_iff_eq
      dec_written := nofun, valid_written := nofun }

/-- DECB writes the entry at CNT, within the buffer, and then counts it. -/
theorem decbAt_coherentAt (h : CoherentAt n s) (hnext : decbAt n d s = .next t) : CoherentAt n t := by
  obtain ⟨-, rfl⟩ | ⟨hm, -, rfl⟩ | ⟨hm, hn, u, hu, rfl⟩ := decbAt_next.mp hnext
  · exact coherentAt_rejected h nofun
  · refine coherentAt_respond ?_ _
    exact { h with enc_flags := fun hm' => nomatch hm.symm.trans hm' }
  · obtain ⟨-, hle, hcnt⟩ := add_one_of_le_of_ne h.cnt_le hn
    have hpbuf := storePayload_wfAt hu h.pbuf_wf
    obtain ⟨-, rfl⟩ := storePayload_ok hu
    refine coherentAt_respond ?_ _
    exact { h with
      pbuf_wf := hpbuf
      cnt_le := hle
      enc_ks := fun hm' => nomatch hm.symm.trans hm'
      dec_zs := fun _ => (h.dec_zs hm).trans (ksNext_eq_zero_iff s.ks).symm
      dec_written := fun _ i hi => by
        rw [State.absorb_cnt, hcnt] at hi
        rw [State.absorb_pbuf, readByte_writeByte]
        split
        · rfl
        · exact h.dec_written hm i (by omega)
      valid_written := fun hres => nomatch (h.dec_res hm).symm.trans hres }

/-- A frame that ends VALID makes readable what the decode has written. -/
theorem execDece_coherentAt (h : CoherentAt n s) (hnext : execDece d s = .next t) : CoherentAt n t := by
  obtain ⟨-, rfl⟩ | ⟨hm, rfl⟩ := execDece_next.mp hnext
  · exact coherentAt_rejected h nofun
  · refine coherentAt_respond ?_ _
    by_cases hr : decodeReason d s = .noReason
    · obtain ⟨-, -, h0, -⟩ := decodeReason_eq_noReason.mp hr
      have hpos : 1 ≤ s.cnt := by bv_omega
      rw [hr, endFrame_valid]
      exact { h with
        plen_valid := fun _ => ⟨hpos, h.cnt_le⟩, plen_other := fun hne => absurd rfl hne, rsn_iff := by simp
        dec_res := nofun, enc_flags := nofun, enc_ks := nofun, dec_zs := nofun, dec_written := nofun
        valid_written := fun _ => h.dec_written hm }
    · rw [endFrame_invalid s hr]
      exact { h with
        plen_valid := nofun, plen_other := fun _ => rfl, rsn_iff := by simp [hr], dec_res := nofun
        enc_flags := nofun, enc_ks := nofun, dec_zs := nofun, dec_written := nofun, valid_written := nofun }

theorem execDec1_coherentAt (h : CoherentAt n s) (hnext : execDec1 d s = .next t) : CoherentAt n t := by
  obtain ⟨-, rfl⟩ | ⟨hm, rfl⟩ := (execDec1_next (d := d)).mp hnext
  · exact coherentAt_rejected h nofun
  · have hdec : s.mode ≠ .dec := hm ▸ nofun
    have henc : s.mode ≠ .enc := hm ▸ nofun
    refine coherentAt_respond ?_ _
    exact { h with
      cnt_le := zero_le_byte n, plen_valid := nofun, plen_other := fun _ => rfl, rsn_iff := by simp
      dec_res := fun hm' => absurd hm' hdec, enc_flags := fun hm' => absurd hm' henc
      dec_zs := fun hm' => absurd hm' hdec, dec_written := fun hm' => absurd hm' hdec, valid_written := nofun }

theorem rdpayAt_coherentAt (h : CoherentAt n s) (hnext : rdpayAt n d s = .next t) : CoherentAt n t := by
  obtain ⟨-, rfl⟩ | ⟨-, -, rfl⟩ | ⟨-, -, v, -, rfl⟩ := rdpayAt_next.mp hnext
  · exact coherentAt_rejected h nofun
  · exact coherentAt_rejected h nofun
  · exact coherentAt_respond h _

/-! CFGW and RDREG -/

theorem cfgwAt_coherentAt (h : CoherentAt n s) (hnext : cfgwAt n d s = .next t) : CoherentAt n t := by
  obtain ⟨-, rfl⟩ | ⟨-, hd, rfl⟩ | ⟨-, -, rfl⟩ := cfgwAt_next.mp hnext
  · exact coherentAt_rejected h nofun
  · exact coherentAt_respond (s := { s with cfg := d }) { h with cfg_le := hd } _
  · exact coherentAt_rejected h nofun

theorem rdregAt_coherentAt (h : CoherentAt n s) (hnext : rdregAt n d s = .next t) : CoherentAt n t := by
  obtain ⟨v, -, rfl⟩ | ⟨-, rfl⟩ := rdregAt_next.mp hnext
  · exact coherentAt_respond h _
  · exact coherentAt_rejected h nofun

/-- Every command of this hardware keeps its invariants. -/
theorem exec_coherent {i : Instr} (h : Coherent s) (hnext : exec i s = .next t) : Coherent t := by
  cases i with
  | nop => rw [emitNone_next.mp hnext]; exact coherentAt_respond h _
  | clrerr => rw [emitNone_next.mp hnext]; exact coherentAt_respond (coherentAt_clearErrors h) _
  | abort => rw [emitNone_next.mp hnext]; exact coherentAt_respond (coherentAt_abort h) _
  | srst => rw [emitNone_next.mp hnext]; exact coherentAt_respond (coherentAt_resetRegisters h) _
  | sset _ => rw [emitNone_next.mp hnext]; exact { h with }
  | sstep _ | schk _ => rw [emit_next.mp hnext]; exact { h with }
  | map _ => rw [emit_next.mp hnext]; exact coherentAt_respond h _
  | encs _ => exact execEncs_coherentAt h hnext
  | encb _ => exact encbAt_coherentAt h hnext
  | ence => exact execEnce_coherentAt h hnext
  | decs _ => exact execDecs_coherentAt h hnext
  | decb _ => exact decbAt_coherentAt h hnext
  | dece _ => exact execDece_coherentAt h hnext
  | dec1 d => exact execDec1_coherentAt (d := d) h hnext
  | cfgw _ => exact cfgwAt_coherentAt h hnext
  | rdreg _ => exact rdregAt_coherentAt h hnext
  | rdpay _ => exact rdpayAt_coherentAt h hnext

/-- Every rising edge keeps the invariants: a reset edge starts them anew, and an edge without a command touches none of
their registers. -/
theorem step_coherent (h : Coherent s) (hstep : step s = .next t) : Coherent t := by
  obtain rfl | ⟨i, -, hexec⟩ | rfl | rfl := step_cases hstep
  · exact { coherentAt_reset Config.nMax with }
  · exact exec_coherent (coherentAt_tick h) hexec
  · exact coherentAt_rejected (coherentAt_tick h) nofun
  · exact { h with }

/-! Every capacity (00_scope.md R7) -/

theorem encbAt_completes (n d : Byte) (s : State) : ∃ t, encbAt n d s = .next t := by
  by_cases hm : s.mode = .enc
  · by_cases hn : s.cnt = n
    · exact ⟨_, encbAt_next.mpr (.inr (.inl ⟨hm, hn, rfl⟩))⟩
    · exact ⟨_, encbAt_next.mpr (.inr (.inr ⟨hm, hn, rfl⟩))⟩
  · exact ⟨_, encbAt_next.mpr (.inl ⟨hm, rfl⟩)⟩

/-- Where CNT keeps within the capacity, DECB stores inside the buffer. -/
theorem decbAt_completes (d : Byte) (h : s.cnt ≤ n) : ∃ t, decbAt n d s = .next t := by
  by_cases hm : s.mode = .dec
  · by_cases hn : s.cnt = n
    · exact ⟨_, decbAt_next.mpr (.inr (.inl ⟨hm, hn, rfl⟩))⟩
    · obtain ⟨hlt, -⟩ := add_one_of_le_of_ne h hn
      exact ⟨_, decbAt_next.mpr (.inr (.inr ⟨hm, hn, _, storePayload_of_lt _ s hlt, rfl⟩))⟩
  · exact ⟨_, decbAt_next.mpr (.inl ⟨hm, rfl⟩)⟩

theorem cfgwAt_completes (n d : Byte) (s : State) : ∃ t, cfgwAt n d s = .next t := by
  by_cases hm : s.mode = .idle
  · by_cases hd : d ≤ n
    · exact ⟨_, cfgwAt_next.mpr (.inr (.inl ⟨hm, hd, rfl⟩))⟩
    · exact ⟨_, cfgwAt_next.mpr (.inr (.inr ⟨hm, hd, rfl⟩))⟩
  · exact ⟨_, cfgwAt_next.mpr (.inl ⟨hm, rfl⟩)⟩

theorem rdregAt_completes (n d : Byte) (s : State) : ∃ t, rdregAt n d s = .next t := by
  cases hv : readRegister n d s with
  | some v => exact ⟨_, rdregAt_next.mpr (.inl ⟨v, hv, rfl⟩)⟩
  | none => exact ⟨_, rdregAt_next.mpr (.inr ⟨hv, rfl⟩)⟩

/-- Where PLEN keeps within the capacity, RDPAY reads inside the buffer. -/
theorem rdpayAt_completes (d : Byte) (h : s.res = .valid → s.plen ≤ n) : ∃ t, rdpayAt n d s = .next t := by
  by_cases hr : s.res = .valid
  · by_cases hd : d < s.plen
    · have hlt : d < n := Nat.lt_of_lt_of_le hd (h hr)
      exact ⟨_, rdpayAt_next.mpr (.inr (.inr ⟨hr, hd, _, loadPayload_of_lt s hlt, rfl⟩))⟩
    · exact ⟨_, rdpayAt_next.mpr (.inr (.inl ⟨hr, hd, rfl⟩))⟩
  · exact ⟨_, rdpayAt_next.mpr (.inl ⟨hr, rfl⟩)⟩

/-- A command has one next state. -/
theorem eq_of_next {o : Out} {u : State} (h : o = .next t) (h' : o = .next u) : t = u :=
  Host.Outcome.next.inj (h.symm.trans h')

end Sys2Proof.Machine

namespace Sys2Proof.Proofs

open Sys2Proof.Machine

/-- Settles O50, from the cases of a step. -/
theorem everyEdgeKeepsCoherence : Obligations.EveryEdgeKeepsCoherence := fun _ _ => step_coherent

/-- Settles O52: each command completes in some state, which its coherence lemma covers and its branch at the capacity
gives. -/
theorem everyCapacityKeepsCoherence : Obligations.EveryCapacityKeepsCoherence := by
  intro n d s _ h
  refine ⟨?encb, ?decb, ?cfgw, ?rdreg, ?rdpay⟩
  case encb =>
    obtain ⟨t, ht⟩ := encbAt_completes n d s
    exact ⟨t, ht, encbAt_coherentAt h ht, fun hm hn => eq_of_next ht (encbAt_next.mpr (.inr (.inl ⟨hm, hn, rfl⟩)))⟩
  case decb =>
    obtain ⟨t, ht⟩ := decbAt_completes d h.cnt_le
    exact ⟨t, ht, decbAt_coherentAt h ht, fun hm hn => eq_of_next ht (decbAt_next.mpr (.inr (.inl ⟨hm, hn, rfl⟩)))⟩
  case cfgw =>
    obtain ⟨t, ht⟩ := cfgwAt_completes n d s
    exact ⟨t, ht, cfgwAt_coherentAt h ht, fun hm hd =>
      eq_of_next ht (cfgwAt_next.mpr (.inr (.inr ⟨hm, BitVec.not_le.mpr hd, rfl⟩)))⟩
  case rdreg =>
    obtain ⟨t, ht⟩ := rdregAt_completes n d s
    exact ⟨t, ht, rdregAt_coherentAt h ht, fun hd => eq_of_next ht (rdregAt_next.mpr (.inl ⟨n, hd ▸ rfl, rfl⟩))⟩
  case rdpay =>
    obtain ⟨t, ht⟩ := rdpayAt_completes d fun hr => (h.plen_valid hr).2
    exact ⟨t, ht, rdpayAt_coherentAt h ht⟩

end Sys2Proof.Proofs
end

section
/-! PROOFS. What the decoder holds in mid-frame (spec 42_frame_decode.md R140, R141): a seed and the payload recovered
so far. -/

namespace Sys2Proof.Machine

variable {i : Instr} {s t : State} {seed d : Byte} {p : List Byte}

/-- The frame engine holds what seed and payload `p` give: `p`'s bytes in PBUF, their count, the keystream state after
them and their checksum. -/
structure DecodeContent (seed : Byte) (p : List Byte) (s : State) : Prop where
  length : p.length = s.cnt.toNat
  zs : s.zs = true ↔ seed = 0
  ks : s.ks = ksNext^[p.length] seed
  ck : s.ck = checksum seed p
  pbuf : ∀ i, i < p.length → readByte s.pbuf i = p[i]?

/-- `DecodeInProgress` says that in DEC there is such a content. -/
theorem decodeInProgress_iff : DecodeInProgress s ↔ (s.mode = .dec → ∃ seed p, DecodeContent seed p s) := by
  constructor <;> intro h hm
  · obtain ⟨seed, p, hlen, hzs, hks, hck, hpbuf⟩ := h hm
    exact ⟨seed, p, hlen, hzs, hks, hck, hpbuf⟩
  · obtain ⟨seed, p, hlen, hzs, hks, hck, hpbuf⟩ := h hm
    exact ⟨seed, p, hlen, hzs, hks, hck, hpbuf⟩

/-- The state after DECS in IDLE holds the seed and no byte yet (R140). -/
theorem exec_decs_content (hm : s.mode = .idle) (seed : Byte) :
    ∃ t, exec (.decs seed) s = .next t ∧ t.mode = .dec ∧ t.ovf = false ∧ DecodeContent seed [] t :=
  ⟨_, execDecs_next.mpr (.inr ⟨hm, rfl⟩), rfl, rfl, rfl, beq_iff_eq, rfl, rfl, nofun⟩

/-- The content after DECB below N_MAX: one more recovered byte, at PBUF[CNT] (R141). -/
theorem decodeContent_absorb (h : DecodeContent seed p s) (hn : s.cnt ≠ Config.nMax) :
    DecodeContent seed (p ++ [d ^^^ ksNext s.ks])
      (({ s with pbuf := writeByte s.pbuf s.cnt.toNat (d ^^^ ksNext s.ks) } : State).absorb (ksNext s.ks)
        (chk8 s.ck (d ^^^ ksNext s.ks))) where
  length := by rw [List.length_append, h.length, State.absorb_cnt, toNat_add_one_of_ne_nMax hn]; rfl
  zs := h.zs
  ks := by rw [List.length_append, List.length_singleton, Function.iterate_succ_apply', ← h.ks]; rfl
  ck := by rw [checksum_append, ← h.ck]; rfl
  pbuf i hi := by
    rw [State.absorb_pbuf, readByte_writeByte, ← h.length]
    split
    next hlast => rw [hlast, List.getElem?_concat_length]
    next hne =>
      rw [List.length_append, List.length_singleton] at hi
      rw [h.pbuf i (by omega), List.getElem?_append_left (by omega)]

/-- A command that writes none of the decoder's registers keeps the content. -/
theorem decodeContent_of_keepsUnlisted (h : DecodeContent seed p s) (hk : KeepsUnlisted i s t)
    (hi : i.mnemonic ∉ ["ENCS", "DECS", "DEC1", "ABORT", "SRST", "ENCB", "DECB"]) : DecodeContent seed p t := by
  simp only [List.mem_cons, List.not_mem_nil, or_false, not_or] at hi
  obtain ⟨hencs, hdecs, hdec1, habort, hsrst, hencb, hdecb⟩ := hi
  have hcnt : t.cnt = s.cnt := hk.cnt (by simp [*])
  have hzs : t.zs = s.zs := hk.zs (by simp [*])
  obtain ⟨hks, hck⟩ : t.ks = s.ks ∧ t.ck = s.ck := hk.ks_ck (by simp [*])
  have hpbuf : t.pbuf = s.pbuf := hk.pbuf hdecb
  exact ⟨by rw [hcnt, h.length], by rw [hzs, h.zs], by rw [hks, h.ks], by rw [hck, h.ck], by rw [hpbuf]; exact h.pbuf⟩

/-- A block is in DEC only from before or by DECS. -/
theorem exec_mode_dec (h : exec i s = .next t) (ht : t.mode = .dec) : s.mode = .dec ∨ i.mnemonic = "DECS" := by
  by_cases hm : t.mode = s.mode
  · exact .inl (hm ▸ ht)
  · obtain ⟨-, -, he⟩ | ⟨-, -, he⟩ | ⟨hi, -⟩ | ⟨-, -, he⟩ | ⟨-, he⟩ := exec_mode_change h hm
    all_goals first | exact .inr hi | exact nomatch ht.symm.trans he

/-- In DEC the commands that start or encode a frame are rejected. -/
theorem exec_rejected_of_dec (h : exec i s = .next t) (hm : s.mode = .dec)
    (hi : i.mnemonic ∈ ["ENCS", "ENCB", "DECS", "DEC1"]) : t = s.rejected .seq := by
  have hidle : s.mode ≠ .idle := hm ▸ nofun
  have henc : s.mode ≠ .enc := hm ▸ nofun
  cases i with
  | encs d => exact eq_of_next h (execEncs_next.mpr (.inl ⟨hidle, rfl⟩))
  | encb d => exact eq_of_next h (encbAt_next.mpr (.inl ⟨henc, rfl⟩))
  | decs d => exact eq_of_next h (execDecs_next.mpr (.inl ⟨hidle, rfl⟩))
  | dec1 d => exact eq_of_next h ((execDec1_next (d := d)).mpr (.inl ⟨hidle, rfl⟩))
  | _ => simp [Instr.mnemonic] at hi

/-- A rejection keeps the content. -/
theorem decodeContent_rejected (h : DecodeContent seed p s) (e : ErrCode) : DecodeContent seed p (s.rejected e) :=
  { h with }

/-- In mid-frame a command that leaves the block in DEC keeps a content. -/
theorem exec_decodeContent (h : DecodeContent seed p s) (hm : s.mode = .dec) (hexec : exec i s = .next t)
    (ht : t.mode = .dec) : ∃ p', DecodeContent seed p' t := by
  by_cases hrej : i.mnemonic ∈ ["ENCS", "ENCB", "DECS", "DEC1"]
  · rw [exec_rejected_of_dec hexec hm hrej]
    exact ⟨p, decodeContent_rejected h .seq⟩
  by_cases hi : i.mnemonic ∈ ["ABORT", "SRST", "DECB"]
  · cases i with
    | abort => exact nomatch (exec_abort_or_srst_mode (.inl rfl) hexec).symm.trans ht
    | srst => exact nomatch (exec_abort_or_srst_mode (.inr rfl) hexec).symm.trans ht
    | decb d =>
      obtain ⟨-, rfl⟩ | ⟨-, -, rfl⟩ | ⟨-, hn, u, hu, rfl⟩ := decbAt_next.mp hexec
      · exact ⟨p, decodeContent_rejected h .seq⟩
      · exact ⟨p, { h with }⟩
      · obtain ⟨-, rfl⟩ := storePayload_ok hu
        exact ⟨_, { decodeContent_absorb (d := d) h hn with }⟩
    | _ => simp [Instr.mnemonic] at hi
  · refine ⟨p, decodeContent_of_keepsUnlisted h (exec_keepsUnlisted hexec) ?_⟩
    simp only [List.mem_cons, List.not_mem_nil, or_false, not_or] at hrej hi ⊢
    tauto

/-- Every command keeps the decoder's content: DECS starts one, and the others keep that of a block that stays in DEC.
-/
theorem exec_decodeInProgress (h : DecodeInProgress s) (hexec : exec i s = .next t) : DecodeInProgress t := by
  rw [decodeInProgress_iff] at h ⊢
  intro ht
  by_cases hm : s.mode = .dec
  · obtain ⟨seed, p, hc⟩ := h hm
    exact ⟨seed, exec_decodeContent hc hm hexec ht⟩
  · have hi := (exec_mode_dec hexec ht).resolve_left hm
    obtain ⟨d, rfl⟩ : ∃ d, i = .decs d := by cases i <;> simp [Instr.mnemonic] at hi ⊢
    obtain ⟨-, rfl⟩ | ⟨hidle, -⟩ := execDecs_next.mp hexec
    · exact absurd ht hm
    · obtain ⟨u, hu, -, -, hc⟩ := exec_decs_content hidle d
      exact ⟨d, [], eq_of_next hexec hu ▸ hc⟩

theorem decodeInProgress_of_idle (h : s.mode = .idle) : DecodeInProgress s := fun hm => nomatch h.symm.trans hm

/-- Every rising edge keeps the decoder's content. -/
theorem step_decodeInProgress (h : DecodeInProgress s) (hstep : step s = .next t) : DecodeInProgress t := by
  obtain rfl | ⟨i, -, hexec⟩ | rfl | rfl := step_cases hstep
  · exact decodeInProgress_of_idle rfl
  · exact exec_decodeInProgress (s := s.tick) h hexec
  · exact h
  · exact h

end Sys2Proof.Machine

namespace Sys2Proof.Proofs

open Sys2Proof.Machine

/-- Settles O49. -/
theorem resetIsCoherent : Obligations.ResetIsCoherent :=
  ⟨coherentAt_reset Config.nMax, decodeInProgress_of_idle rfl, rfl⟩

/-- Settles O51, from the cases of a step. -/
theorem everyEdgeKeepsDecodeContent : Obligations.EveryEdgeKeepsDecodeContent := fun _ _ => step_decodeInProgress

end Sys2Proof.Proofs
end

section
/-! PROOFS. The streams of the responses, and the streamed encoder (spec 30_encoding.md R73, R81; 41_frame_encode.md
R123): ENCODE answers the bytes of the source's frame, one word each. -/

namespace Sys2Proof.Machine

variable {i : Instr} {s t : State} {w : RspWord} {seed : Byte}

/-- One command alone. -/
theorem runCommands_singleton (h : exec i s = .next t) (hrsp : t.rsp = some w) : runCommands [i] s = some ([w], t) :=
  runCommands_cons h hrsp rfl

/-! The streams (R73) -/

theorem frameBytes_append (ws vs : List RspWord) : frameBytes (ws ++ vs) = frameBytes ws ++ frameBytes vs := by
  simp [frameBytes]

theorem symbolStream_append (ws vs : List RspWord) : symbolStream (ws ++ vs) = symbolStream ws ++ symbolStream vs := by
  simp [symbolStream]

theorem symbolsOf_append (bs cs : List Byte) : symbolsOf (bs ++ cs) = symbolsOf bs ++ symbolsOf cs := by
  simp [symbolsOf]

theorem symbolsOf_length (bs : List Byte) : (symbolsOf bs).length = 2 * bs.length := by
  induction bs with
  | nil => rfl
  | cons b bs ih =>
    rw [show symbolsOf (b :: bs) = _ :: _ :: symbolsOf bs from rfl, List.length_cons, List.length_cons, ih,
      List.length_cons]
    omega

/-- Output words of a tag SEED, DATA or CHECK give back their bytes. -/
theorem frameBytes_map_emitWord {tag : Tag} (htag : tag ∈ [Tag.seed, .data, .check]) (bs : List Byte) :
    frameBytes (bs.map (emitWord tag)) = bs := by
  have hframe (b : Byte) : isFrameResponse (emitWord tag b) = true := by
    rw [isFrameResponse, rspOv_emitWord, rspTag_emitWord]
    revert tag; decide
  induction bs with
  | nil => rfl
  | cons b bs ih =>
    rw [List.map_cons, frameBytes, List.filter_cons_of_pos (hframe b), List.map_cons, rspByte_emitWord, ← frameBytes,
      ih]

/-- Output words of a tag that carries symbols give their bytes' symbols (R72). -/
theorem symbolStream_map_emitWord {tag : Tag} (htag : tag.carriesSymbols = true) (bs : List Byte) :
    symbolStream (bs.map (emitWord tag)) = symbolsOf bs := by
  have hsv (b : Byte) : rspSv (emitWord tag b) = true := by rw [rspSv_emitWord, htag]
  induction bs with
  | nil => rfl
  | cons b bs ih =>
    obtain ⟨hhi, hlo⟩ := rspSyms_emitWord_of_carriesSymbols htag b
    rw [List.map_cons, symbolStream, List.filter_cons_of_pos (hsv b), List.flatMap_cons, hhi, hlo, ← symbolStream, ih]
    rfl

/-! The scrambled payload (20_memory.md R41) -/

theorem scramble_eq_zipWith (k : Byte) (p : List Byte) :
    scramble k p = List.zipWith (· ^^^ ·) p (keystream k p.length) := by
  induction p generalizing k with
  | nil => rfl
  | cons b p ih => rw [scramble, ih]; rfl

theorem scramble_length (k : Byte) (p : List Byte) : (scramble k p).length = p.length := by
  induction p generalizing k with
  | nil => rfl
  | cons b p ih => rw [scramble, List.length_cons, ih, List.length_cons]

/-- Scrambling twice gives the payload back. -/
theorem scramble_scramble (k : Byte) (p : List Byte) : scramble k (scramble k p) = p := by
  induction p generalizing k with
  | nil => rfl
  | cons b p ih => rw [scramble, scramble, ih, BitVec.xor_assoc, BitVec.xor_self, BitVec.xor_zero]

/-! The encoder's run (R120 to R123) -/

/-- The responses of an ENCODE: the seed, the scrambled payload and its checksum (R120 to R122). -/
def encodeResponses (seed : Byte) (payload : List Byte) : List RspWord :=
  [seed].map (emitWord .seed) ++
    ((scramble seed payload).map (emitWord .data) ++ [checksum seed payload].map (emitWord .check))

theorem frameBytes_encodeResponses (seed : Byte) (payload : List Byte) :
    frameBytes (encodeResponses seed payload) = encodeFrame seed payload := by
  rw [encodeResponses, frameBytes_append, frameBytes_append, frameBytes_map_emitWord (by decide),
    frameBytes_map_emitWord (by decide), frameBytes_map_emitWord (by decide)]
  rfl

theorem symbolStream_encodeResponses (seed : Byte) (payload : List Byte) :
    symbolStream (encodeResponses seed payload) = symbolsOf (encodeFrame seed payload) := by
  rw [encodeResponses, symbolStream_append, symbolStream_append, symbolStream_map_emitWord rfl,
    symbolStream_map_emitWord rfl, symbolStream_map_emitWord rfl, ← symbolsOf_append, ← symbolsOf_append]
  rfl

/-- ENCBs in mid-frame: while CNT stays within N_MAX, each byte is answered scrambled (R121). -/
theorem runCommands_encb (payload : List Byte) (hm : s.mode = .enc) (hlen : s.cnt.toNat + payload.length ≤ 255) :
    ∃ t, runCommands (payload.map .encb) s = some ((scramble s.ks payload).map (emitWord .data), t) ∧
      t.mode = .enc ∧ t.ck = checksum s.ck payload ∧ t.cnt.toNat = s.cnt.toNat + payload.length ∧ t.cfg = s.cfg := by
  induction payload generalizing s with
  | nil => exact ⟨s, rfl, hm, rfl, rfl, rfl⟩
  | cons b payload ih =>
    rw [List.length_cons] at hlen
    have hn : s.cnt ≠ Config.nMax := by
      intro hn
      rw [hn] at hlen
      exact absurd hlen (by simp [Config.nMax])
    have hexec : exec (.encb b) s = .next _ := encbAt_next.mpr (.inr (.inr ⟨hm, hn, rfl⟩))
    have hcnt := toNat_add_one_of_ne_nMax hn
    obtain ⟨t, hrun, hmode, hck, hcnt', hcfg⟩ :=
      ih (s := (s.absorb (ksNext s.ks) (chk8 s.ck b)).respond (emitWord .data (b ^^^ ksNext s.ks))) hm
        (by rw [State.respond_cnt, State.absorb_cnt, hcnt]; omega)
    refine ⟨t, runCommands_cons hexec rfl hrun, hmode, hck, ?_, hcfg⟩
    rw [hcnt', State.respond_cnt, State.absorb_cnt, hcnt, List.length_cons]
    omega

/-- CFG accepts a frame of as many bytes as CNT counts (R23, R122). -/
theorem lengthWrong_eq_false_of_toNat {n : Nat} (hcfg : s.cfg = 0 ∨ s.cfg.toNat = n) (hcnt : s.cnt.toNat = n) :
    lengthWrong s = false :=
  lengthWrong_eq_false_iff.mpr (hcfg.imp_right fun h => BitVec.eq_of_toNat_eq (hcnt.trans h.symm))

/-- ENCODE from IDLE: every command completes, and the block is back in IDLE. -/
theorem runCommands_encode (payload : List Byte) (hm : s.mode = .idle) (hseed : seed ≠ 0) (hpos : 1 ≤ payload.length)
    (hlen : payload.length ≤ 255) (hcfg : s.cfg = 0 ∨ s.cfg.toNat = payload.length) :
    ∃ t, runCommands (expand (.encode seed payload)) s = some (encodeResponses seed payload, t) ∧
      t.mode = .idle ∧ t.cnt.toNat = payload.length ∧ t.cfg = s.cfg := by
  have hencs : exec (.encs seed) s = .next _ := execEncs_next.mpr (.inr (.inr ⟨hm, hseed, rfl⟩))
  obtain ⟨u, hrun, hmode, hck, hcnt, hcfg'⟩ := runCommands_encb payload
    (s := State.respond { s.loadSeed seed with zs := false, ovf := false, mode := .enc } (emitWord .seed seed)) rfl
    (by simpa using hlen)
  have hcnt : u.cnt.toNat = payload.length := hcnt.trans (Nat.zero_add _)
  have h0 : u.cnt ≠ 0 := by
    intro h0
    rw [h0] at hcnt
    exact absurd hcnt.symm (Nat.ne_of_gt hpos)
  have hl : lengthWrong u = false := lengthWrong_eq_false_of_toNat (hcfg'.symm ▸ hcfg) hcnt
  have hence : exec .ence u = .next _ := execEnce_next.mpr (.inr (.inr (.inr ⟨hmode, h0, hl, rfl⟩)))
  have hrun' : runCommands (expand (.encode seed payload)) s =
      some (emitWord .seed seed :: ((scramble seed payload).map (emitWord .data) ++ [emitWord .check u.ck]),
        State.respond { u with mode := .idle } (emitWord .check u.ck)) :=
    runCommands_cons hencs rfl (runCommands_append hrun (runCommands_singleton hence rfl))
  rw [hck] at hrun'
  exact ⟨_, hrun', rfl, hcnt, hcfg'⟩

end Sys2Proof.Machine

namespace Sys2Proof.Proofs

open Sys2Proof.Machine

/-- Settles O27: the run's responses carry the bytes of `encodeFrame`, one each. -/
theorem streamedEncodeIsTheSourceFrame : Obligations.StreamedEncodeIsTheSourceFrame := by
  intro s seed payload hm hseed hpos hlen hcfg
  obtain ⟨t, hrun, hmode, hcnt, -⟩ := runCommands_encode payload hm hseed hpos hlen hcfg
  refine ⟨_, t, hrun, ?bytes, frameBytes_encodeResponses seed payload, symbolStream_encodeResponses seed payload,
    ?count, hmode, hcnt⟩
  case bytes => rw [frameBytes_encodeResponses, encodeFrame, scramble_eq_zipWith]
  case count =>
    rw [symbolStream_encodeResponses, symbolsOf_length, encodeFrame, List.length_cons, List.length_append,
      scramble_length, List.length_singleton]

end Sys2Proof.Proofs
end

section
/-! PROOFS. The streamed decoder (spec 30_encoding.md R81, 42_frame_decode.md R140 to R147): what it holds after a
frame's seed and payload bytes, and the reason with which the frame then ends. -/

namespace Sys2Proof.Machine

variable {s t u : State} {seed c b : Byte} {bs : List Byte}

/-! The source's frame functions (20_memory.md R41) -/

theorem scramble_concat (k : Byte) (p : List Byte) (b : Byte) :
    scramble k (p ++ [b]) = scramble k p ++ [b ^^^ ksNext (ksNext^[p.length] k)] := by
  induction p generalizing k with
  | nil => rfl
  | cons a p ih => rw [List.cons_append, scramble, ih, scramble]; rfl

/-- A change in one byte stays one in the same byte of the scrambled bytes. -/
theorem scramble_set_xor (k e : Byte) (p : List Byte) (j : Nat) (h : j < p.length) (h' : j < (scramble k p).length) :
    scramble k (p.set j (p[j] ^^^ e)) = (scramble k p).set j ((scramble k p)[j] ^^^ e) := by
  induction p generalizing k j with
  | nil => exact absurd h (Nat.not_lt_zero j)
  | cons b p ih =>
    cases j with
    | zero =>
      simp only [scramble, List.set_cons_zero, List.getElem_cons_zero, BitVec.xor_assoc, BitVec.xor_comm e]
    | succ j =>
      simp only [scramble, List.set_cons_succ, List.getElem_cons_succ]
      rw [ih]

/-- The source's decoder on a frame of a seed, scrambled bytes and a checksum (R146). -/
theorem decodeFrame_concat (seed c : Byte) (bs : List Byte) :
    decodeFrame (seed :: (bs ++ [c])) =
      if seed = 0 then none
      else if checksum seed (scramble seed bs) = c then some (scramble seed bs) else none := by
  simp [decodeFrame]

theorem xor_ne_self {x e : Byte} (he : e ≠ 0) : x ^^^ e ≠ x :=
  fun h => he ((BitVec.xor_right_inj x).mp (h.trans BitVec.xor_zero.symm))

/-- A change in one byte of a valid frame after its seed gives a frame whose checksum is not its payload's: the byte
is one of the payload, whose change the checksum sees (R106 (e)), or the checksum alone. -/
theorem exists_frame_of_byte_change {e : Byte} {payload : List Byte} {k : Nat}
    (hk : k < (encodeFrame seed payload).length) (he : e ≠ 0) (hk1 : 1 ≤ k) :
    ∃ p c, (encodeFrame seed payload).set k ((encodeFrame seed payload)[k] ^^^ e) = seed :: (scramble seed p ++ [c]) ∧
      p.length = payload.length ∧ checksum seed p ≠ c := by
  obtain ⟨j, rfl⟩ := Nat.exists_eq_add_of_le' hk1
  have hslen := scramble_length seed payload
  simp only [encodeFrame, List.set_cons_succ, List.getElem_cons_succ]
  by_cases hj : j < payload.length
  · have hj' : j < (scramble seed payload).length := by rwa [hslen]
    refine ⟨payload.set j (payload[j] ^^^ e), checksum seed payload, ?_, List.length_set, ?_⟩
    · rw [List.set_append_left _ _ hj', List.getElem_append_left hj', scramble_set_xor seed e payload j hj hj']
    · rw [checksum_set_xor]
      exact xor_ne_self (mt (eightSteps_iterate_eq_zero_iff _ e).mp he)
  · have hj : j = (scramble seed payload).length := by
      simp only [encodeFrame, List.length_cons, List.length_append, List.length_nil] at hk
      omega
    refine ⟨payload, checksum seed payload ^^^ e, ?_, rfl, ?_⟩
    · subst hj
      simp
    · exact (xor_ne_self he).symm

/-! The decoder before the frame's end (R140, R141) -/

/-- The state after DECS of `seed` and DECBs of `bs`: up to N_MAX bytes are held, more set OVF. -/
structure DecoderAfter (seed : Byte) (bs : List Byte) (s : State) : Prop where
  mode : s.mode = .dec
  zs : s.zs = true ↔ seed = 0
  content : bs.length ≤ 255 → s.ovf = false ∧ DecodeContent seed (scramble seed bs) s
  overflow : 255 < bs.length → s.cnt = Config.nMax ∧ s.ovf = true

/-- While a content is held, CNT counts its bytes. -/
theorem cnt_of_decoderAfter (h : DecoderAfter seed bs s) (hlen : bs.length ≤ 255) : s.cnt.toNat = bs.length := by
  rw [← (h.content hlen).2.length, scramble_length]

/-- From N_MAX bytes on, CNT stays at N_MAX. -/
theorem cnt_eq_nMax_of_decoderAfter (h : DecoderAfter seed bs s) (hlen : 255 ≤ bs.length) : s.cnt = Config.nMax := by
  obtain hlt | heq := Nat.lt_or_eq_of_le hlen
  · exact (h.overflow hlt).1
  · exact BitVec.eq_of_toNat_eq (by rw [cnt_of_decoderAfter h heq.ge, ← heq]; rfl)

/-- One more DECB. -/
theorem exec_decb_decoderAfter (h : DecoderAfter seed bs s) (b : Byte) :
    ∃ t, exec (.decb b) s = .next t ∧ t.rsp = some emptyWord ∧ DecoderAfter seed (bs ++ [b]) t ∧ t.cfg = s.cfg := by
  have hlen' : (bs ++ [b]).length = bs.length + 1 := List.length_append
  by_cases hlen : bs.length < 255
  · have hn : s.cnt ≠ Config.nMax := by
      intro hn
      have hcnt := cnt_of_decoderAfter h hlen.le
      rw [hn] at hcnt
      exact absurd hcnt.symm hlen.ne
    obtain ⟨hovf, hc⟩ := h.content hlen.le
    have hc' := decodeContent_absorb (d := b) hc hn
    rw [hc.ks, scramble_length, ← scramble_concat, ← scramble_length seed bs, ← hc.ks] at hc'
    exact ⟨_, decbAt_next.mpr (.inr (.inr ⟨h.mode, hn, _, decbAt_nMax_ok _ hn, rfl⟩)), rfl,
      ⟨h.mode, h.zs, fun _ => ⟨hovf, { hc' with }⟩, fun hgt => by omega⟩, rfl⟩
  · have hn := cnt_eq_nMax_of_decoderAfter h (Nat.le_of_not_lt hlen)
    exact ⟨_, decbAt_next.mpr (.inr (.inl ⟨h.mode, hn, rfl⟩)), rfl,
      ⟨h.mode, h.zs, fun hle => by omega, fun _ => ⟨hn, rfl⟩⟩, rfl⟩

/-- Any number of DECBs. -/
theorem runCommands_decb (cs : List Byte) (h : DecoderAfter seed bs s) :
    ∃ rs t, runCommands (cs.map .decb) s = some (rs, t) ∧ DecoderAfter seed (bs ++ cs) t ∧ t.cfg = s.cfg := by
  induction cs generalizing bs s with
  | nil => exact ⟨[], s, rfl, by rwa [List.append_nil], rfl⟩
  | cons b cs ih =>
    obtain ⟨u, hexec, hrsp, hu, hcfg⟩ := exec_decb_decoderAfter h b
    obtain ⟨rs, t, hrun, ht, hcfg'⟩ := ih hu
    rw [List.append_assoc] at ht
    exact ⟨_, t, runCommands_cons hexec hrsp hrun, ht, hcfg'.trans hcfg⟩

theorem decodeTail_concat (bs : List Byte) (c : Byte) : decodeTail (bs ++ [c]) = bs.map .decb ++ [.dece c] := by
  induction bs with
  | nil => rfl
  | cons b bs ih =>
    rw [List.map_cons, List.cons_append, List.cons_append, ← ih]
    cases bs <;> rfl

/-- A frame of two or more bytes is DECS, DECBs and DECE (R81). -/
theorem expand_decode (seed c : Byte) (bs : List Byte) :
    expand (.decode (seed :: (bs ++ [c]))) = .decs seed :: (bs.map .decb ++ [.dece c]) := by
  rw [← decodeTail_concat]
  cases bs <;> rfl

/-- DECODE from IDLE runs to the DECE of the frame's last byte. -/
theorem runCommands_decode (seed c : Byte) (bs : List Byte) (hm : s.mode = .idle) :
    ∃ u, DecoderAfter seed bs u ∧ u.cfg = s.cfg ∧
      ∀ t, exec (.dece c) u = .next t →
        ∃ rs, runCommands (expand (.decode (seed :: (bs ++ [c])))) s = some (rs, t) := by
  obtain ⟨v, hexec, hmode, hovf, hc⟩ := exec_decs_content hm seed
  have hv : DecoderAfter seed [] v := ⟨hmode, hc.zs, fun _ => ⟨hovf, hc⟩, nofun⟩
  have hcfgv : v.cfg = s.cfg := (exec_keepsUnlisted hexec).cfg (by simp [Instr.mnemonic])
  obtain ⟨rs, u, hrun, hu, hcfg⟩ := runCommands_decb bs hv
  refine ⟨u, hu, hcfg.trans hcfgv, fun t ht => ?_⟩
  obtain ⟨w, hrsp⟩ : ∃ w, v.rsp = some w := by
    obtain ⟨v', w, hexec', hrsp, -⟩ := exec_answers s (.decs seed)
    exact ⟨w, eq_of_next hexec hexec' ▸ hrsp⟩
  obtain ⟨w', hrsp'⟩ : ∃ w, t.rsp = some w := by
    obtain ⟨t', w, hexec', hrsp, -⟩ := exec_answers u (.dece c)
    exact ⟨w, eq_of_next ht hexec' ▸ hrsp⟩
  rw [expand_decode]
  exact ⟨_, runCommands_cons hexec hrsp (runCommands_append hrun (runCommands_singleton ht hrsp'))⟩

/-! The frame's end (R142) -/

/-- The fixed priority, in terms of the frame. -/
theorem decodeReason_zeroSeed (h : DecoderAfter 0 bs u) : decodeReason c u = .zeroSeed :=
  decodeReason_of_zs (h.zs.mpr rfl)

theorem cnt_ne_zero_of_decoderAfter (h : DecoderAfter seed bs u) (hpos : 1 ≤ bs.length) (hlen : bs.length ≤ 255) :
    u.cnt ≠ 0 := by
  intro h0
  have hcnt := cnt_of_decoderAfter h hlen
  rw [h0] at hcnt
  exact absurd hcnt (Nat.ne_of_lt hpos)

section
variable (h : DecoderAfter seed bs u) (hseed : seed ≠ 0)
include h hseed

theorem zs_of_decoderAfter : u.zs = false := Bool.eq_false_iff.mpr (mt h.zs.mp hseed)

theorem decodeReason_overflow (hlen : 255 < bs.length) : decodeReason c u = .overflow :=
  decodeReason_of_ovf (zs_of_decoderAfter h hseed) (h.overflow hlen).2

theorem decodeReason_empty (hlen : bs.length = 0) : decodeReason c u = .empty := by
  have hlen' : bs.length ≤ 255 := hlen.trans_le (Nat.zero_le _)
  have hcnt : u.cnt = 0 := BitVec.eq_of_toNat_eq ((cnt_of_decoderAfter h hlen').trans hlen)
  exact decodeReason_of_cnt_eq_zero (zs_of_decoderAfter h hseed) (h.content hlen').1 hcnt

variable (hpos : 1 ≤ bs.length) (hlen : bs.length ≤ 255) (hcfg : u.cfg = 0 ∨ u.cfg.toNat = bs.length)
include hpos hlen hcfg

/-- A frame of a length that CFG accepts is decided by its checksum. -/
theorem decodeReason_mismatch (hc : checksum seed (scramble seed bs) ≠ c) : decodeReason c u = .mismatch := by
  obtain ⟨hovf, hcontent⟩ := h.content hlen
  exact decodeReason_of_ck_ne (zs_of_decoderAfter h hseed) hovf (cnt_ne_zero_of_decoderAfter h hpos hlen)
    (lengthWrong_eq_false_of_toNat hcfg (cnt_of_decoderAfter h hlen)) (by rwa [hcontent.ck])

theorem decodeReason_noReason (hc : checksum seed (scramble seed bs) = c) : decodeReason c u = .noReason := by
  obtain ⟨hovf, hcontent⟩ := h.content hlen
  have hl := lengthWrong_eq_false_of_toNat hcfg (cnt_of_decoderAfter h hlen)
  exact decodeReason_eq_noReason.mpr ⟨zs_of_decoderAfter h hseed, hovf, cnt_ne_zero_of_decoderAfter h hpos hlen,
    lengthWrong_eq_false_iff.mp hl, by rw [hcontent.ck, hc]⟩

end

/-! A whole DECODE -/

/-- The block is in IDLE after an INVALID result with reason `r`. -/
structure EndsInvalid (r : Rsn) (t : State) : Prop where
  mode : t.mode = .idle
  res : t.res = .invalid
  rsn : t.rsn = r
  plen : t.plen = 0

/-- The block is in IDLE after a VALID result with payload `p`. -/
structure EndsValid (p : List Byte) (t : State) : Prop where
  mode : t.mode = .idle
  res : t.res = .valid
  rsn : t.rsn = .noReason
  plen : t.plen.toNat = p.length
  pbuf : ∀ i, i < p.length → readByte t.pbuf i = p[i]?

/-- A DECODE whose frame fails a check. -/
theorem runCommands_decode_invalid {r : Rsn} (hm : s.mode = .idle) (hr : r ≠ .noReason)
    (hreason : ∀ u, DecoderAfter seed bs u → u.cfg = s.cfg → decodeReason c u = r) :
    ∃ rs t, runCommands (expand (.decode (seed :: (bs ++ [c])))) s = some (rs, t) ∧ EndsInvalid r t := by
  obtain ⟨u, hu, hcfg, hrun⟩ := runCommands_decode seed c bs hm
  obtain ⟨rs, hrun⟩ := hrun _ (exec_dece_of_invalid hu.mode (hreason u hu hcfg) hr)
  exact ⟨rs, _, hrun, rfl, rfl, rfl, rfl⟩

section
variable (hm : s.mode = .idle)
include hm

/-- R147 (d): seed 0, whatever CFG and the bytes are. -/
theorem runCommands_decode_zeroSeed (bs : List Byte) (c : Byte) :
    ∃ rs t, runCommands (expand (.decode (0 :: (bs ++ [c])))) s = some (rs, t) ∧ EndsInvalid .zeroSeed t :=
  runCommands_decode_invalid hm nofun fun _ hu _ => decodeReason_zeroSeed hu

variable (hseed : seed ≠ 0) (hpos : 1 ≤ bs.length) (hlen : bs.length ≤ 255)
  (hcfg : s.cfg = 0 ∨ s.cfg.toNat = bs.length)
include hseed hpos hlen hcfg

/-- A wrong checksum. -/
theorem runCommands_decode_mismatch (hc : checksum seed (scramble seed bs) ≠ c) :
    ∃ rs t, runCommands (expand (.decode (seed :: (bs ++ [c])))) s = some (rs, t) ∧ EndsInvalid .mismatch t :=
  runCommands_decode_invalid hm nofun fun _ hu hcfg' =>
    decodeReason_mismatch hu hseed hpos hlen (hcfg' ▸ hcfg) hc

/-- The right checksum: PBUF holds the source's payload. -/
theorem runCommands_decode_valid (hc : checksum seed (scramble seed bs) = c) :
    ∃ rs t, runCommands (expand (.decode (seed :: (bs ++ [c])))) s = some (rs, t) ∧
      EndsValid (scramble seed bs) t := by
  obtain ⟨u, hu, hcfg', hrun⟩ := runCommands_decode seed c bs hm
  have hreason := decodeReason_noReason hu hseed hpos hlen (hcfg' ▸ hcfg) hc
  obtain ⟨rs, hrun⟩ := hrun _ (exec_dece_of_valid hu.mode hreason)
  obtain ⟨-, hcontent⟩ := hu.content hlen
  exact ⟨rs, _, hrun, rfl, rfl, rfl, hcontent.length.symm, hcontent.pbuf⟩

end

/-- A frame of one byte is a DEC1 (R143). -/
theorem runCommands_decode_singleton (hm : s.mode = .idle) (b : Byte) :
    ∃ rs t, runCommands (expand (.decode [b])) s = some (rs, t) ∧ EndsInvalid .short t :=
  ⟨_, _, runCommands_singleton ((execDec1_next (d := b)).mpr (.inr ⟨hm, rfl⟩)) rfl, hm, rfl, rfl, rfl⟩

/-! READPAY (R81, R144) -/

/-- After a VALID result, READPAY answers the payload byte by byte and keeps it. -/
theorem runCommands_readpay {p : List Byte} (h : EndsValid p s) (n : Nat) (hn : n ≤ p.length) :
    ∃ t, runCommands (expand (.readpay n)) s = some ((p.take n).map (emitWord .pay), t) ∧ EndsValid p t := by
  induction n with
  | zero => exact ⟨s, rfl, h⟩
  | succ n ih =>
    obtain ⟨t, hrun, ht⟩ := ih (by omega)
    have hidx : (BitVec.ofNat 8 n).toNat = n := by
      have := t.plen.isLt
      rw [ht.plen] at this
      exact toNat_ofNat_of_le (by omega)
    have hd : BitVec.ofNat 8 n < t.plen := by rw [BitVec.lt_def, hidx, ht.plen]; omega
    have hbyte : readByte t.pbuf (BitVec.ofNat 8 n).toNat = some p[n] := by
      rw [hidx, ht.pbuf n (by omega), List.getElem?_eq_getElem]
    have hexec : exec (.rdpay (BitVec.ofNat 8 n)) t = .next (t.respond (emitWord .pay p[n])) := by
      rw [← payloadValue_of_written hbyte]
      exact rdpayAt_next.mpr (.inr (.inr ⟨ht.res, hd, _, rdpayAt_nMax_ok hd, rfl⟩))
    refine ⟨t.respond (emitWord .pay p[n]), ?_, { ht with }⟩
    have := runCommands_append hrun (runCommands_singleton hexec rfl)
    rw [expand, List.range_succ, List.map_append, List.take_succ_eq_append_getElem hn, List.map_append]
    exact this

/-- A nonempty list is its first elements and its last. -/
theorem exists_eq_concat {f : List Byte} (h : 1 ≤ f.length) : ∃ bs c, f = bs ++ [c] :=
  ⟨f.dropLast, f.getLast (List.ne_nil_of_length_pos h), (List.dropLast_append_getLast _).symm⟩

end Sys2Proof.Machine

namespace Sys2Proof.Proofs

open Sys2Proof.Machine

/-- Settles O36. -/
theorem zeroSeedFramesAreInvalid : Obligations.ZeroSeedFramesAreInvalid := by
  intro s f hm hlen
  obtain ⟨bs, c, rfl⟩ := exists_eq_concat hlen
  obtain ⟨rs, t, hrun, ht⟩ := runCommands_decode_zeroSeed hm bs c
  exact ⟨rs, t, hrun, ht.mode, ht.res, ht.rsn, ht.plen⟩

/-- Settles O33, by the frame's length: one byte, or a seed, scrambled bytes and a checksum. -/
theorem streamedDecodeIsTheSourceDecode : Obligations.StreamedDecodeIsTheSourceDecode := by
  intro s f hm hcfg hlen
  obtain _ | ⟨seed, rest⟩ := f
  · exact absurd hlen (by simp)
  obtain hrest | hrest := Nat.eq_zero_or_pos rest.length
  · obtain rfl := List.length_eq_zero_iff.mp hrest
    obtain ⟨rs, t, hrun, ht⟩ := runCommands_decode_singleton hm seed
    exact ⟨rs, t, hrun, ht.mode, fun h => absurd h (by simp), fun _ => ⟨ht.res, ht.rsn⟩, fun h => absurd h (by simp),
      fun h => absurd h (by simp)⟩
  obtain ⟨bs, c, rfl⟩ := exists_eq_concat hrest
  have hflen : (seed :: (bs ++ [c])).length = bs.length + 2 := by simp
  rw [decodeFrame_concat, hflen, List.head?_cons]
  by_cases hseed : seed = 0
  · subst hseed
    obtain ⟨rs, t, hrun, ht⟩ := runCommands_decode_zeroSeed hm bs c
    exact ⟨rs, t, hrun, ht.mode, fun _ _ => ⟨nofun, fun _ => ⟨ht.res, ht.plen, ht.rsn⟩⟩, fun h => by omega,
      fun _ => ⟨ht.res, ht.rsn⟩, fun _ => ⟨ht.res, ht.rsn⟩⟩
  have hhead : ¬ some seed = some 0 := mt Option.some.inj hseed
  rw [if_neg hhead, if_neg hhead, if_neg hhead, if_neg hseed]
  obtain hempty | hover | ⟨hpos, hle⟩ : bs.length = 0 ∨ 255 < bs.length ∨ 1 ≤ bs.length ∧ bs.length ≤ 255 := by omega
  · obtain ⟨rs, t, hrun, ht⟩ := runCommands_decode_invalid (r := .empty) (c := c) hm nofun fun u hu _ =>
      decodeReason_empty hu hseed hempty
    exact ⟨rs, t, hrun, ht.mode, fun _ => by omega, fun h => by omega, fun _ => ⟨ht.res, ht.rsn⟩, fun h => by omega⟩
  · obtain ⟨rs, t, hrun, ht⟩ := runCommands_decode_invalid (r := .overflow) (c := c) hm nofun fun u hu _ =>
      decodeReason_overflow hu hseed hover
    exact ⟨rs, t, hrun, ht.mode, fun _ _ => by omega, fun h => by omega, fun h => by omega, fun _ => ⟨ht.res, ht.rsn⟩⟩
  by_cases hc : checksum seed (scramble seed bs) = c
  · obtain ⟨rs, t, hrun, ht⟩ := runCommands_decode_valid hm hseed hpos hle (.inl hcfg) hc
    have hplen : (scramble seed bs).length = bs.length := scramble_length seed bs
    rw [if_pos hc]
    refine ⟨rs, t, hrun, ht.mode, fun _ _ => ⟨fun p hp => ?_, nofun⟩, fun h => by omega, fun h => by omega,
      fun h => by omega⟩
    cases hp
    exact ⟨ht.res, ht.rsn, ht.plen.trans hplen, hplen, fun i hi => ht.pbuf i (hplen ▸ hi)⟩
  · obtain ⟨rs, t, hrun, ht⟩ := runCommands_decode_mismatch hm hseed hpos hle (.inl hcfg) hc
    rw [if_neg hc]
    exact ⟨rs, t, hrun, ht.mode, fun _ _ => ⟨nofun, fun _ => ⟨ht.res, ht.plen, ht.rsn⟩⟩, fun h => by omega,
      fun h => by omega, fun h => by omega⟩

/-- Settles O34: what the encoder emits is the source's frame, whose scrambled bytes unscramble to the payload. -/
theorem encodeThenDecodeReturnsThePayload : Obligations.EncodeThenDecodeReturnsThePayload := by
  intro s seed payload hm hseed hpos hlen hcfg
  obtain ⟨t, hrun, hmode, -, hcfg'⟩ := runCommands_encode payload hm hseed hpos hlen hcfg
  have hslen := scramble_length seed payload
  obtain ⟨ds, u, hdec, hu⟩ := runCommands_decode_valid (bs := scramble seed payload) (c := checksum seed payload) hmode
    hseed (by rwa [hslen]) (by rwa [hslen]) (by rwa [hslen, hcfg']) (by rw [scramble_scramble])
  rw [scramble_scramble] at hu
  obtain ⟨v, hread, -⟩ := runCommands_readpay hu payload.length le_rfl
  refine ⟨_, t, ds, u, _, v, hrun, ?_, hu.res, hu.plen, hread, by rw [List.take_length]⟩
  rwa [frameBytes_encodeResponses, encodeFrame]

/-- Settles O35: the altered frame has a checksum that is not its payload's (`exists_frame_of_byte_change`). -/
theorem singleByteErrorsAreDetected : Obligations.SingleByteErrorsAreDetected := by
  intro s seed e payload k hk hm hseed he hk1 hpos hlen hcfg
  obtain ⟨p, c, hframe, hplen, hc⟩ := exists_frame_of_byte_change hk he hk1
  have hslen : (scramble seed p).length = payload.length := (scramble_length seed p).trans hplen
  obtain ⟨rs, t, hrun, ht⟩ := runCommands_decode_mismatch (bs := scramble seed p) (c := c) hm hseed (by rwa [hslen])
    (by rwa [hslen]) (by rwa [hslen]) (by rwa [scramble_scramble])
  rw [hframe]
  exact ⟨rs, t, hrun, ht.res, ht.rsn, ht.plen⟩

end Sys2Proof.Proofs
end

section
/-! PROOFS. The scrambler's pseudo-instructions CHECKSUM, KEYSTREAM and SYMBOLS (spec 30_encoding.md R81,
40_scrambler.md R105) and the symbol alphabet (43_symbol_map.md R170). -/

namespace Sys2Proof.Machine

/-- CHECKSUM, by the last byte: SR absorbs it and the last response carries the new SR. -/
theorem runCommands_checksum (s : State) (seed : Byte) (bytes : List Byte) :
    ∃ rs t, runCommands (expand (.checksum seed bytes)) s = some (rs, t) ∧ t.sr = checksum seed bytes ∧
      (bytes ≠ [] → rs.getLast?.map rspByte = some (checksum seed bytes)) := by
  induction bytes using List.reverseRecOn with
  | nil => exact ⟨_, _, runCommands_singleton (exec_sset seed s) rfl, rfl, fun h => absurd rfl h⟩
  | append_singleton bytes b ih =>
    obtain ⟨rs, t, hrun, hsr, -⟩ := ih
    have hsum : checksum seed (bytes ++ [b]) = chk8 t.sr b := by rw [checksum_append, hsr]; rfl
    have hexpand : expand (.checksum seed (bytes ++ [b])) = expand (.checksum seed bytes) ++ [.schk b] := by
      rw [expand, List.map_append]; rfl
    have hschk : exec (.schk b) t = .next _ := (exec_schk b t).trans (updateSr_eq _ t)
    rw [hexpand, hsum]
    refine ⟨_, _, runCommands_append hrun (runCommands_singleton hschk rfl), rfl, fun _ => ?_⟩
    rw [List.getLast?_concat, Option.map_some, rspByte_emitWord]

/-- SSTEPs with no data: the responses carry the keystream from SR (R101). -/
theorem runCommands_sstep (s : State) (n : Nat) :
    ∃ t, runCommands (List.replicate n (.sstep false)) s = some ((keystream s.sr n).map (emitWord .prim), t) ∧
      t.sr = ksNext^[n] s.sr := by
  induction n generalizing s with
  | zero => exact ⟨s, rfl, rfl⟩
  | succ n ih =>
    have hexec : exec (.sstep false) s = .next _ := (exec_sstep false s).trans (updateSr_eq _ s)
    obtain ⟨t, hrun, hsr⟩ := ih { s with sr := ksNext s.sr, rsp := some (emitWord .prim (ksNext s.sr)) }
    exact ⟨t, runCommands_cons hexec rfl hrun, hsr⟩

theorem map_rspByte_map_emitWord (tag : Tag) (bs : List Byte) : (bs.map (emitWord tag)).map rspByte = bs := by
  simp [Function.comp_def]

/-- MAPs: one response a byte, and no other state changes (R172). -/
theorem runCommands_map (s : State) (bytes : List Byte) :
    ∃ t, runCommands (bytes.map .map) s = some (bytes.map (emitWord .map), t) ∧ t = { s with rsp := t.rsp } := by
  induction bytes generalizing s with
  | nil => exact ⟨s, rfl, rfl⟩
  | cons b bytes ih =>
    obtain ⟨t, hrun, ht⟩ := ih { s with rsp := some (emitWord .map b) }
    exact ⟨t, runCommands_cons (exec_map b s) rfl hrun, ht⟩

theorem symbolName_injective : ∀ a b : SymCode, symbolName a = symbolName b → a = b := by decide

theorem symbolAlias_eq : ∀ c : SymCode,
    symbolAlias c = if c = 0xE then some 'e' else if c = 0xF then some 'f' else none := by decide

end Sys2Proof.Machine

namespace Sys2Proof.Proofs

open Sys2Proof.Machine

/-- Settles O59, one pseudo-instruction after another. -/
theorem scramblerMacrosCompute : Obligations.ScramblerMacrosCompute := by
  intro s seed bytes n
  refine ⟨runCommands_checksum s seed bytes, ?keystream, ?symbols⟩
  case keystream =>
    obtain ⟨t, hrun, hsr⟩ := runCommands_sstep { s with sr := seed, rsp := some emptyWord } n
    exact ⟨_, t, runCommands_cons (exec_sset seed s) rfl hrun, map_rspByte_map_emitWord .prim _, hsr⟩
  case symbols =>
    obtain ⟨t, hrun, ht⟩ := runCommands_map s bytes
    exact ⟨_, t, hrun, symbolStream_map_emitWord rfl bytes, ht⟩

/-- Settles O38. -/
theorem symbolAlphabet : Obligations.SymbolAlphabet :=
  ⟨fun _ => rfl, by decide, symbolName_injective, symbolAlias_eq⟩

end Sys2Proof.Proofs
end
